-- ==== Sys2Proof/Word.lean ====
section
/-! DEFINITION. The two word types of the machine: every datum is a byte (R71, R159), every address
has 16 bits (R50). The helpers that cut and join them are in `Decode.lean` and `Machine/`. -/

namespace Sys2Proof

/-- A datum, a register of R20 other than `PC`, an opcode: 8 bits. -/
abbrev Byte := BitVec 8

/-- A logical address, the program counter: 16 bits (R50, R26). -/
abbrev Addr := BitVec 16

end Sys2Proof
end

