-- ==== Sys2Proof/Syntax.lean ====
section
/-! DEFINITION. The instruction set as syntax: the 56 mnemonics, the thirteen addressing modes
(R91), operands, and `Instr`, one constructor for each of the 151 rows of the opcode table (R96,
R101). Fields hold what R93 says the operand bytes mean: an 8-bit immediate, a page-0 address, a
16-bit address, a signed displacement (an integer, log 10). -/

namespace Sys2Proof

/-- The 56 mnemonics (R96). -/
inductive Mnemonic where
  | adc | and | asl | bcc | bcs | beq | bit | bmi | bne | bpl | brk | bvc | bvs | clc
  | cld | cli | clv | cmp | cpx | cpy | dec | dex | dey | eor | inc | inx | iny | jmp
  | jsr | lda | ldx | ldy | lsr | nop | ora | pha | php | pla | plp | rol | ror | rti
  | rts | sbc | sec | sed | sei | sta | stx | sty | tax | tay | tsx | txa | txs | tya
  deriving DecidableEq, Repr

/-- The thirteen addressing modes, by the tags of R91. -/
inductive Mode where
  | impl | acc | imm | zp | zpx | zpy | rel | abs | absx | absy | ind | indx | indy
  deriving DecidableEq, Repr

/-- The operand of a mode that yields an effective address for data, or an absolute target
(R93, R115 to R117, R119 to R122, R124). -/
inductive MemOperand where
  | zp (b1 : Byte) | zpx (b1 : Byte) | zpy (b1 : Byte)
  | abs (w : Addr) | absx (w : Addr) | absy (w : Addr)
  | indx (b1 : Byte) | indy (b1 : Byte)
  deriving DecidableEq, Repr

/-- The operand of an instruction, whatever its mode (R91, R93). -/
inductive Operand where
  | impl
  | acc
  | imm (b1 : Byte)
  | mem (m : MemOperand)
  | rel (disp : Int)
  | ind (w : Addr)
  deriving DecidableEq, Repr

/-- The mode of a memory operand (R91). -/
def MemOperand.mode : MemOperand → Mode
  | .zp _ => .zp | .zpx _ => .zpx | .zpy _ => .zpy
  | .abs _ => .abs | .absx _ => .absx | .absy _ => .absy
  | .indx _ => .indx | .indy _ => .indy

/-- The mode of an operand (R91). -/
def Operand.mode : Operand → Mode
  | .impl => .impl | .acc => .acc | .imm _ => .imm | .mem m => m.mode | .rel _ => .rel
  | .ind _ => .ind

/-- The 151 instructions, in the order of the rules of files 41 to 45. -/
inductive Instr where
  /-- `LDA`, A9, immediate (R141). -/
  | ldaImm (b1 : Byte)
  /-- `LDA`, A5, zero-page (R141). -/
  | ldaZp (b1 : Byte)
  /-- `LDA`, B5, zero-page-X (R141). -/
  | ldaZpX (b1 : Byte)
  /-- `LDA`, AD, absolute (R141). -/
  | ldaAbs (w : Addr)
  /-- `LDA`, BD, absolute-X (R141). -/
  | ldaAbsX (w : Addr)
  /-- `LDA`, B9, absolute-Y (R141). -/
  | ldaAbsY (w : Addr)
  /-- `LDA`, A1, indexed-indirect (R141). -/
  | ldaIndX (b1 : Byte)
  /-- `LDA`, B1, indirect-indexed (R141). -/
  | ldaIndY (b1 : Byte)
  /-- `LDX`, A2, immediate (R142). -/
  | ldxImm (b1 : Byte)
  /-- `LDX`, A6, zero-page (R142). -/
  | ldxZp (b1 : Byte)
  /-- `LDX`, B6, zero-page-Y (R142). -/
  | ldxZpY (b1 : Byte)
  /-- `LDX`, AE, absolute (R142). -/
  | ldxAbs (w : Addr)
  /-- `LDX`, BE, absolute-Y (R142). -/
  | ldxAbsY (w : Addr)
  /-- `LDY`, A0, immediate (R143). -/
  | ldyImm (b1 : Byte)
  /-- `LDY`, A4, zero-page (R143). -/
  | ldyZp (b1 : Byte)
  /-- `LDY`, B4, zero-page-X (R143). -/
  | ldyZpX (b1 : Byte)
  /-- `LDY`, AC, absolute (R143). -/
  | ldyAbs (w : Addr)
  /-- `LDY`, BC, absolute-X (R143). -/
  | ldyAbsX (w : Addr)
  /-- `STA`, 85, zero-page (R144). -/
  | staZp (b1 : Byte)
  /-- `STA`, 95, zero-page-X (R144). -/
  | staZpX (b1 : Byte)
  /-- `STA`, 8D, absolute (R144). -/
  | staAbs (w : Addr)
  /-- `STA`, 9D, absolute-X (R144). -/
  | staAbsX (w : Addr)
  /-- `STA`, 99, absolute-Y (R144). -/
  | staAbsY (w : Addr)
  /-- `STA`, 81, indexed-indirect (R144). -/
  | staIndX (b1 : Byte)
  /-- `STA`, 91, indirect-indexed (R144). -/
  | staIndY (b1 : Byte)
  /-- `STX`, 86, zero-page (R145). -/
  | stxZp (b1 : Byte)
  /-- `STX`, 96, zero-page-Y (R145). -/
  | stxZpY (b1 : Byte)
  /-- `STX`, 8E, absolute (R145). -/
  | stxAbs (w : Addr)
  /-- `STY`, 84, zero-page (R146). -/
  | styZp (b1 : Byte)
  /-- `STY`, 94, zero-page-X (R146). -/
  | styZpX (b1 : Byte)
  /-- `STY`, 8C, absolute (R146). -/
  | styAbs (w : Addr)
  /-- `TAX`, AA, implicit (R147). -/
  | tax
  /-- `TAY`, A8, implicit (R148). -/
  | tay
  /-- `TXA`, 8A, implicit (R149). -/
  | txa
  /-- `TYA`, 98, implicit (R150). -/
  | tya
  /-- `TSX`, BA, implicit (R151). -/
  | tsx
  /-- `TXS`, 9A, implicit (R152). -/
  | txs
  /-- `ADC`, 69, immediate (R161). -/
  | adcImm (b1 : Byte)
  /-- `ADC`, 65, zero-page (R161). -/
  | adcZp (b1 : Byte)
  /-- `ADC`, 75, zero-page-X (R161). -/
  | adcZpX (b1 : Byte)
  /-- `ADC`, 6D, absolute (R161). -/
  | adcAbs (w : Addr)
  /-- `ADC`, 7D, absolute-X (R161). -/
  | adcAbsX (w : Addr)
  /-- `ADC`, 79, absolute-Y (R161). -/
  | adcAbsY (w : Addr)
  /-- `ADC`, 61, indexed-indirect (R161). -/
  | adcIndX (b1 : Byte)
  /-- `ADC`, 71, indirect-indexed (R161). -/
  | adcIndY (b1 : Byte)
  /-- `SBC`, E9, immediate (R162). -/
  | sbcImm (b1 : Byte)
  /-- `SBC`, E5, zero-page (R162). -/
  | sbcZp (b1 : Byte)
  /-- `SBC`, F5, zero-page-X (R162). -/
  | sbcZpX (b1 : Byte)
  /-- `SBC`, ED, absolute (R162). -/
  | sbcAbs (w : Addr)
  /-- `SBC`, FD, absolute-X (R162). -/
  | sbcAbsX (w : Addr)
  /-- `SBC`, F9, absolute-Y (R162). -/
  | sbcAbsY (w : Addr)
  /-- `SBC`, E1, indexed-indirect (R162). -/
  | sbcIndX (b1 : Byte)
  /-- `SBC`, F1, indirect-indexed (R162). -/
  | sbcIndY (b1 : Byte)
  /-- `AND`, 29, immediate (R163). -/
  | andImm (b1 : Byte)
  /-- `AND`, 25, zero-page (R163). -/
  | andZp (b1 : Byte)
  /-- `AND`, 35, zero-page-X (R163). -/
  | andZpX (b1 : Byte)
  /-- `AND`, 2D, absolute (R163). -/
  | andAbs (w : Addr)
  /-- `AND`, 3D, absolute-X (R163). -/
  | andAbsX (w : Addr)
  /-- `AND`, 39, absolute-Y (R163). -/
  | andAbsY (w : Addr)
  /-- `AND`, 21, indexed-indirect (R163). -/
  | andIndX (b1 : Byte)
  /-- `AND`, 31, indirect-indexed (R163). -/
  | andIndY (b1 : Byte)
  /-- `ORA`, 09, immediate (R164). -/
  | oraImm (b1 : Byte)
  /-- `ORA`, 05, zero-page (R164). -/
  | oraZp (b1 : Byte)
  /-- `ORA`, 15, zero-page-X (R164). -/
  | oraZpX (b1 : Byte)
  /-- `ORA`, 0D, absolute (R164). -/
  | oraAbs (w : Addr)
  /-- `ORA`, 1D, absolute-X (R164). -/
  | oraAbsX (w : Addr)
  /-- `ORA`, 19, absolute-Y (R164). -/
  | oraAbsY (w : Addr)
  /-- `ORA`, 01, indexed-indirect (R164). -/
  | oraIndX (b1 : Byte)
  /-- `ORA`, 11, indirect-indexed (R164). -/
  | oraIndY (b1 : Byte)
  /-- `EOR`, 49, immediate (R165). -/
  | eorImm (b1 : Byte)
  /-- `EOR`, 45, zero-page (R165). -/
  | eorZp (b1 : Byte)
  /-- `EOR`, 55, zero-page-X (R165). -/
  | eorZpX (b1 : Byte)
  /-- `EOR`, 4D, absolute (R165). -/
  | eorAbs (w : Addr)
  /-- `EOR`, 5D, absolute-X (R165). -/
  | eorAbsX (w : Addr)
  /-- `EOR`, 59, absolute-Y (R165). -/
  | eorAbsY (w : Addr)
  /-- `EOR`, 41, indexed-indirect (R165). -/
  | eorIndX (b1 : Byte)
  /-- `EOR`, 51, indirect-indexed (R165). -/
  | eorIndY (b1 : Byte)
  /-- `CMP`, C9, immediate (R166). -/
  | cmpImm (b1 : Byte)
  /-- `CMP`, C5, zero-page (R166). -/
  | cmpZp (b1 : Byte)
  /-- `CMP`, D5, zero-page-X (R166). -/
  | cmpZpX (b1 : Byte)
  /-- `CMP`, CD, absolute (R166). -/
  | cmpAbs (w : Addr)
  /-- `CMP`, DD, absolute-X (R166). -/
  | cmpAbsX (w : Addr)
  /-- `CMP`, D9, absolute-Y (R166). -/
  | cmpAbsY (w : Addr)
  /-- `CMP`, C1, indexed-indirect (R166). -/
  | cmpIndX (b1 : Byte)
  /-- `CMP`, D1, indirect-indexed (R166). -/
  | cmpIndY (b1 : Byte)
  /-- `CPX`, E0, immediate (R167). -/
  | cpxImm (b1 : Byte)
  /-- `CPX`, E4, zero-page (R167). -/
  | cpxZp (b1 : Byte)
  /-- `CPX`, EC, absolute (R167). -/
  | cpxAbs (w : Addr)
  /-- `CPY`, C0, immediate (R168). -/
  | cpyImm (b1 : Byte)
  /-- `CPY`, C4, zero-page (R168). -/
  | cpyZp (b1 : Byte)
  /-- `CPY`, CC, absolute (R168). -/
  | cpyAbs (w : Addr)
  /-- `BIT`, 24, zero-page (R169). -/
  | bitZp (b1 : Byte)
  /-- `BIT`, 2C, absolute (R169). -/
  | bitAbs (w : Addr)
  /-- `INC`, E6, zero-page (R171). -/
  | incZp (b1 : Byte)
  /-- `INC`, F6, zero-page-X (R171). -/
  | incZpX (b1 : Byte)
  /-- `INC`, EE, absolute (R171). -/
  | incAbs (w : Addr)
  /-- `INC`, FE, absolute-X (R171). -/
  | incAbsX (w : Addr)
  /-- `DEC`, C6, zero-page (R172). -/
  | decZp (b1 : Byte)
  /-- `DEC`, D6, zero-page-X (R172). -/
  | decZpX (b1 : Byte)
  /-- `DEC`, CE, absolute (R172). -/
  | decAbs (w : Addr)
  /-- `DEC`, DE, absolute-X (R172). -/
  | decAbsX (w : Addr)
  /-- `INX`, E8, implicit (R173). -/
  | inx
  /-- `INY`, C8, implicit (R174). -/
  | iny
  /-- `DEX`, CA, implicit (R175). -/
  | dex
  /-- `DEY`, 88, implicit (R176). -/
  | dey
  /-- `ASL`, 0A, accumulator (R177). -/
  | aslAcc
  /-- `ASL`, 06, zero-page (R177). -/
  | aslZp (b1 : Byte)
  /-- `ASL`, 16, zero-page-X (R177). -/
  | aslZpX (b1 : Byte)
  /-- `ASL`, 0E, absolute (R177). -/
  | aslAbs (w : Addr)
  /-- `ASL`, 1E, absolute-X (R177). -/
  | aslAbsX (w : Addr)
  /-- `LSR`, 4A, accumulator (R178). -/
  | lsrAcc
  /-- `LSR`, 46, zero-page (R178). -/
  | lsrZp (b1 : Byte)
  /-- `LSR`, 56, zero-page-X (R178). -/
  | lsrZpX (b1 : Byte)
  /-- `LSR`, 4E, absolute (R178). -/
  | lsrAbs (w : Addr)
  /-- `LSR`, 5E, absolute-X (R178). -/
  | lsrAbsX (w : Addr)
  /-- `ROL`, 2A, accumulator (R179). -/
  | rolAcc
  /-- `ROL`, 26, zero-page (R179). -/
  | rolZp (b1 : Byte)
  /-- `ROL`, 36, zero-page-X (R179). -/
  | rolZpX (b1 : Byte)
  /-- `ROL`, 2E, absolute (R179). -/
  | rolAbs (w : Addr)
  /-- `ROL`, 3E, absolute-X (R179). -/
  | rolAbsX (w : Addr)
  /-- `ROR`, 6A, accumulator (R180). -/
  | rorAcc
  /-- `ROR`, 66, zero-page (R180). -/
  | rorZp (b1 : Byte)
  /-- `ROR`, 76, zero-page-X (R180). -/
  | rorZpX (b1 : Byte)
  /-- `ROR`, 6E, absolute (R180). -/
  | rorAbs (w : Addr)
  /-- `ROR`, 7E, absolute-X (R180). -/
  | rorAbsX (w : Addr)
  /-- `BCC`, 90, relative (R186). -/
  | bcc (disp : Int)
  /-- `BCS`, B0, relative (R187). -/
  | bcs (disp : Int)
  /-- `BEQ`, F0, relative (R188). -/
  | beq (disp : Int)
  /-- `BNE`, D0, relative (R189). -/
  | bne (disp : Int)
  /-- `BMI`, 30, relative (R190). -/
  | bmi (disp : Int)
  /-- `BPL`, 10, relative (R191). -/
  | bpl (disp : Int)
  /-- `BVC`, 50, relative (R192). -/
  | bvc (disp : Int)
  /-- `BVS`, 70, relative (R193). -/
  | bvs (disp : Int)
  /-- `JMP`, 4C, absolute (R194). -/
  | jmpAbs (w : Addr)
  /-- `JMP`, 6C, indirect (R194). -/
  | jmpInd (w : Addr)
  /-- `JSR`, 20, absolute (R195). -/
  | jsr (w : Addr)
  /-- `RTS`, 60, implicit (R196). -/
  | rts
  /-- `PHA`, 48, implicit (R201). -/
  | pha
  /-- `PLA`, 68, implicit (R202). -/
  | pla
  /-- `PHP`, 08, implicit (R203). -/
  | php
  /-- `PLP`, 28, implicit (R204). -/
  | plp
  /-- `CLC`, 18, implicit (R205). -/
  | clc
  /-- `SEC`, 38, implicit (R206). -/
  | sec
  /-- `CLI`, 58, implicit (R207). -/
  | cli
  /-- `SEI`, 78, implicit (R208). -/
  | sei
  /-- `CLV`, B8, implicit (R209). -/
  | clv
  /-- `CLD`, D8, implicit (R210). -/
  | cld
  /-- `SED`, F8, implicit (R211). -/
  | sed
  /-- `BRK`, 00, implicit (R212). -/
  | brk
  /-- `RTI`, 40, implicit (R213). -/
  | rti
  /-- `NOP`, EA, implicit (R214). -/
  | nop
  deriving DecidableEq, Repr

end Sys2Proof
end

