-- ==== Sys2Proof/WellFormed.lean ====
section
/-! DEFINITION. Which terms of `Instr` are instructions: the displacement of a branch is a signed
8-bit number, -128 to +127 (R93). Every other operand's range is its type. -/

namespace Sys2Proof

/-- The displacements one operand byte can hold (R93). -/
def dispInRange (disp : Int) : Bool := decide (-128 ≤ disp) && decide (disp ≤ 127)

/-- The check on a term of `Instr` (R93). -/
def Instr.wellFormed : Instr → Bool
  | .bcc disp | .bcs disp | .beq disp | .bne disp | .bmi disp | .bpl disp | .bvc disp
  | .bvs disp =>
    dispInRange disp
  | .ldaImm _ | .ldaZp _ | .ldaZpX _ | .ldaAbs _ | .ldaAbsX _ | .ldaAbsY _ | .ldaIndX _
  | .ldaIndY _ | .ldxImm _ | .ldxZp _ | .ldxZpY _ | .ldxAbs _ | .ldxAbsY _ | .ldyImm _
  | .ldyZp _ | .ldyZpX _ | .ldyAbs _ | .ldyAbsX _ | .staZp _ | .staZpX _ | .staAbs _
  | .staAbsX _ | .staAbsY _ | .staIndX _ | .staIndY _ | .stxZp _ | .stxZpY _ | .stxAbs _
  | .styZp _ | .styZpX _ | .styAbs _ | .tax | .tay | .txa | .tya | .tsx | .txs | .adcImm _
  | .adcZp _ | .adcZpX _ | .adcAbs _ | .adcAbsX _ | .adcAbsY _ | .adcIndX _ | .adcIndY _
  | .sbcImm _ | .sbcZp _ | .sbcZpX _ | .sbcAbs _ | .sbcAbsX _ | .sbcAbsY _ | .sbcIndX _
  | .sbcIndY _ | .andImm _ | .andZp _ | .andZpX _ | .andAbs _ | .andAbsX _ | .andAbsY _
  | .andIndX _ | .andIndY _ | .oraImm _ | .oraZp _ | .oraZpX _ | .oraAbs _ | .oraAbsX _
  | .oraAbsY _ | .oraIndX _ | .oraIndY _ | .eorImm _ | .eorZp _ | .eorZpX _ | .eorAbs _
  | .eorAbsX _ | .eorAbsY _ | .eorIndX _ | .eorIndY _ | .cmpImm _ | .cmpZp _ | .cmpZpX _
  | .cmpAbs _ | .cmpAbsX _ | .cmpAbsY _ | .cmpIndX _ | .cmpIndY _ | .cpxImm _ | .cpxZp _
  | .cpxAbs _ | .cpyImm _ | .cpyZp _ | .cpyAbs _ | .bitZp _ | .bitAbs _ | .incZp _ | .incZpX _
  | .incAbs _ | .incAbsX _ | .decZp _ | .decZpX _ | .decAbs _ | .decAbsX _ | .inx | .iny | .dex
  | .dey | .aslAcc | .aslZp _ | .aslZpX _ | .aslAbs _ | .aslAbsX _ | .lsrAcc | .lsrZp _
  | .lsrZpX _ | .lsrAbs _ | .lsrAbsX _ | .rolAcc | .rolZp _ | .rolZpX _ | .rolAbs _
  | .rolAbsX _ | .rorAcc | .rorZp _ | .rorZpX _ | .rorAbs _ | .rorAbsX _ | .jmpAbs _
  | .jmpInd _ | .jsr _ | .rts | .pha | .pla | .php | .plp | .clc | .sec | .cli | .sei | .clv
  | .cld | .sed | .brk | .rti | .nop => true

end Sys2Proof
end

