-- ==== Sys2Proof/Decode.lean ====
section
/-! DEFINITION. The instruction table as data (R35, R94, R95, R101), the decoder over bytes, and the
encoder written from the same encodings (R92, R93, R96). Decoding is total and rejects by name. -/

namespace Sys2Proof

/-- `{hi, lo}`: the 16-bit value of two bytes, the low one first in memory (R10, R69). -/
def wordOf (lo hi : Byte) : Addr := hi ++ lo

/-- `v[7:0]` of a 16-bit value (R10). -/
def loByte (v : Addr) : Byte := v.setWidth 8

/-- `v[15:8]` of a 16-bit value, for an address its page number (R10, R12). -/
def hiByte (v : Addr) : Byte := v.extractLsb' 8 8

/-- Operand byte count `n` of a mode (R91). -/
def Mode.operandBytes : Mode → Nat
  | .impl | .acc => 0
  | .imm | .zp | .zpx | .zpy | .rel | .indx | .indy => 1
  | .abs | .absx | .absy | .ind => 2

/-- How the operand bytes build the instruction: the formats of R92. A displacement byte is read as
signed (R93). -/
inductive Form where
  /-- Format F1: the opcode alone. -/
  | f1 (i : Instr)
  /-- Format F2: one operand byte. -/
  | f2 (mk : Byte → Instr)
  /-- Format F2 in relative mode: the byte is a signed displacement. -/
  | f2rel (mk : Int → Instr)
  /-- Format F3: two operand bytes, low byte first. -/
  | f3 (mk : Addr → Instr)

/-- One row of the instruction table: the descriptor of R94 with its opcode and builder. -/
structure Row where
  opcode : Byte
  mnemonic : Mnemonic
  mode : Mode
  base : Nat
  form : Form

/-- Opcodes 00 to 0F (R95). -/
def opcodeRow0 : List Row := [
  ⟨0x00, .brk, .impl, 7, .f1 .brk⟩,
  ⟨0x01, .ora, .indx, 6, .f2 .oraIndX⟩,
  ⟨0x05, .ora, .zp, 3, .f2 .oraZp⟩,
  ⟨0x06, .asl, .zp, 5, .f2 .aslZp⟩,
  ⟨0x08, .php, .impl, 3, .f1 .php⟩,
  ⟨0x09, .ora, .imm, 2, .f2 .oraImm⟩,
  ⟨0x0A, .asl, .acc, 2, .f1 .aslAcc⟩,
  ⟨0x0D, .ora, .abs, 4, .f3 .oraAbs⟩,
  ⟨0x0E, .asl, .abs, 6, .f3 .aslAbs⟩]

/-- Opcodes 10 to 1F (R95). -/
def opcodeRow1 : List Row := [
  ⟨0x10, .bpl, .rel, 2, .f2rel .bpl⟩,
  ⟨0x11, .ora, .indy, 5, .f2 .oraIndY⟩,
  ⟨0x15, .ora, .zpx, 4, .f2 .oraZpX⟩,
  ⟨0x16, .asl, .zpx, 6, .f2 .aslZpX⟩,
  ⟨0x18, .clc, .impl, 2, .f1 .clc⟩,
  ⟨0x19, .ora, .absy, 4, .f3 .oraAbsY⟩,
  ⟨0x1D, .ora, .absx, 4, .f3 .oraAbsX⟩,
  ⟨0x1E, .asl, .absx, 7, .f3 .aslAbsX⟩]

/-- Opcodes 20 to 2F (R95). -/
def opcodeRow2 : List Row := [
  ⟨0x20, .jsr, .abs, 6, .f3 .jsr⟩,
  ⟨0x21, .and, .indx, 6, .f2 .andIndX⟩,
  ⟨0x24, .bit, .zp, 3, .f2 .bitZp⟩,
  ⟨0x25, .and, .zp, 3, .f2 .andZp⟩,
  ⟨0x26, .rol, .zp, 5, .f2 .rolZp⟩,
  ⟨0x28, .plp, .impl, 4, .f1 .plp⟩,
  ⟨0x29, .and, .imm, 2, .f2 .andImm⟩,
  ⟨0x2A, .rol, .acc, 2, .f1 .rolAcc⟩,
  ⟨0x2C, .bit, .abs, 4, .f3 .bitAbs⟩,
  ⟨0x2D, .and, .abs, 4, .f3 .andAbs⟩,
  ⟨0x2E, .rol, .abs, 6, .f3 .rolAbs⟩]

/-- Opcodes 30 to 3F (R95). -/
def opcodeRow3 : List Row := [
  ⟨0x30, .bmi, .rel, 2, .f2rel .bmi⟩,
  ⟨0x31, .and, .indy, 5, .f2 .andIndY⟩,
  ⟨0x35, .and, .zpx, 4, .f2 .andZpX⟩,
  ⟨0x36, .rol, .zpx, 6, .f2 .rolZpX⟩,
  ⟨0x38, .sec, .impl, 2, .f1 .sec⟩,
  ⟨0x39, .and, .absy, 4, .f3 .andAbsY⟩,
  ⟨0x3D, .and, .absx, 4, .f3 .andAbsX⟩,
  ⟨0x3E, .rol, .absx, 7, .f3 .rolAbsX⟩]

/-- Opcodes 40 to 4F (R95). -/
def opcodeRow4 : List Row := [
  ⟨0x40, .rti, .impl, 6, .f1 .rti⟩,
  ⟨0x41, .eor, .indx, 6, .f2 .eorIndX⟩,
  ⟨0x45, .eor, .zp, 3, .f2 .eorZp⟩,
  ⟨0x46, .lsr, .zp, 5, .f2 .lsrZp⟩,
  ⟨0x48, .pha, .impl, 3, .f1 .pha⟩,
  ⟨0x49, .eor, .imm, 2, .f2 .eorImm⟩,
  ⟨0x4A, .lsr, .acc, 2, .f1 .lsrAcc⟩,
  ⟨0x4C, .jmp, .abs, 3, .f3 .jmpAbs⟩,
  ⟨0x4D, .eor, .abs, 4, .f3 .eorAbs⟩,
  ⟨0x4E, .lsr, .abs, 6, .f3 .lsrAbs⟩]

/-- Opcodes 50 to 5F (R95). -/
def opcodeRow5 : List Row := [
  ⟨0x50, .bvc, .rel, 2, .f2rel .bvc⟩,
  ⟨0x51, .eor, .indy, 5, .f2 .eorIndY⟩,
  ⟨0x55, .eor, .zpx, 4, .f2 .eorZpX⟩,
  ⟨0x56, .lsr, .zpx, 6, .f2 .lsrZpX⟩,
  ⟨0x58, .cli, .impl, 2, .f1 .cli⟩,
  ⟨0x59, .eor, .absy, 4, .f3 .eorAbsY⟩,
  ⟨0x5D, .eor, .absx, 4, .f3 .eorAbsX⟩,
  ⟨0x5E, .lsr, .absx, 7, .f3 .lsrAbsX⟩]

/-- Opcodes 60 to 6F (R95). -/
def opcodeRow6 : List Row := [
  ⟨0x60, .rts, .impl, 6, .f1 .rts⟩,
  ⟨0x61, .adc, .indx, 6, .f2 .adcIndX⟩,
  ⟨0x65, .adc, .zp, 3, .f2 .adcZp⟩,
  ⟨0x66, .ror, .zp, 5, .f2 .rorZp⟩,
  ⟨0x68, .pla, .impl, 4, .f1 .pla⟩,
  ⟨0x69, .adc, .imm, 2, .f2 .adcImm⟩,
  ⟨0x6A, .ror, .acc, 2, .f1 .rorAcc⟩,
  ⟨0x6C, .jmp, .ind, 5, .f3 .jmpInd⟩,
  ⟨0x6D, .adc, .abs, 4, .f3 .adcAbs⟩,
  ⟨0x6E, .ror, .abs, 6, .f3 .rorAbs⟩]

/-- Opcodes 70 to 7F (R95). -/
def opcodeRow7 : List Row := [
  ⟨0x70, .bvs, .rel, 2, .f2rel .bvs⟩,
  ⟨0x71, .adc, .indy, 5, .f2 .adcIndY⟩,
  ⟨0x75, .adc, .zpx, 4, .f2 .adcZpX⟩,
  ⟨0x76, .ror, .zpx, 6, .f2 .rorZpX⟩,
  ⟨0x78, .sei, .impl, 2, .f1 .sei⟩,
  ⟨0x79, .adc, .absy, 4, .f3 .adcAbsY⟩,
  ⟨0x7D, .adc, .absx, 4, .f3 .adcAbsX⟩,
  ⟨0x7E, .ror, .absx, 7, .f3 .rorAbsX⟩]

/-- Opcodes 80 to 8F (R95). -/
def opcodeRow8 : List Row := [
  ⟨0x81, .sta, .indx, 6, .f2 .staIndX⟩,
  ⟨0x84, .sty, .zp, 3, .f2 .styZp⟩,
  ⟨0x85, .sta, .zp, 3, .f2 .staZp⟩,
  ⟨0x86, .stx, .zp, 3, .f2 .stxZp⟩,
  ⟨0x88, .dey, .impl, 2, .f1 .dey⟩,
  ⟨0x8A, .txa, .impl, 2, .f1 .txa⟩,
  ⟨0x8C, .sty, .abs, 4, .f3 .styAbs⟩,
  ⟨0x8D, .sta, .abs, 4, .f3 .staAbs⟩,
  ⟨0x8E, .stx, .abs, 4, .f3 .stxAbs⟩]

/-- Opcodes 90 to 9F (R95). -/
def opcodeRow9 : List Row := [
  ⟨0x90, .bcc, .rel, 2, .f2rel .bcc⟩,
  ⟨0x91, .sta, .indy, 6, .f2 .staIndY⟩,
  ⟨0x94, .sty, .zpx, 4, .f2 .styZpX⟩,
  ⟨0x95, .sta, .zpx, 4, .f2 .staZpX⟩,
  ⟨0x96, .stx, .zpy, 4, .f2 .stxZpY⟩,
  ⟨0x98, .tya, .impl, 2, .f1 .tya⟩,
  ⟨0x99, .sta, .absy, 5, .f3 .staAbsY⟩,
  ⟨0x9A, .txs, .impl, 2, .f1 .txs⟩,
  ⟨0x9D, .sta, .absx, 5, .f3 .staAbsX⟩]

/-- Opcodes A0 to AF (R95). -/
def opcodeRowA : List Row := [
  ⟨0xA0, .ldy, .imm, 2, .f2 .ldyImm⟩,
  ⟨0xA1, .lda, .indx, 6, .f2 .ldaIndX⟩,
  ⟨0xA2, .ldx, .imm, 2, .f2 .ldxImm⟩,
  ⟨0xA4, .ldy, .zp, 3, .f2 .ldyZp⟩,
  ⟨0xA5, .lda, .zp, 3, .f2 .ldaZp⟩,
  ⟨0xA6, .ldx, .zp, 3, .f2 .ldxZp⟩,
  ⟨0xA8, .tay, .impl, 2, .f1 .tay⟩,
  ⟨0xA9, .lda, .imm, 2, .f2 .ldaImm⟩,
  ⟨0xAA, .tax, .impl, 2, .f1 .tax⟩,
  ⟨0xAC, .ldy, .abs, 4, .f3 .ldyAbs⟩,
  ⟨0xAD, .lda, .abs, 4, .f3 .ldaAbs⟩,
  ⟨0xAE, .ldx, .abs, 4, .f3 .ldxAbs⟩]

/-- Opcodes B0 to BF (R95). -/
def opcodeRowB : List Row := [
  ⟨0xB0, .bcs, .rel, 2, .f2rel .bcs⟩,
  ⟨0xB1, .lda, .indy, 5, .f2 .ldaIndY⟩,
  ⟨0xB4, .ldy, .zpx, 4, .f2 .ldyZpX⟩,
  ⟨0xB5, .lda, .zpx, 4, .f2 .ldaZpX⟩,
  ⟨0xB6, .ldx, .zpy, 4, .f2 .ldxZpY⟩,
  ⟨0xB8, .clv, .impl, 2, .f1 .clv⟩,
  ⟨0xB9, .lda, .absy, 4, .f3 .ldaAbsY⟩,
  ⟨0xBA, .tsx, .impl, 2, .f1 .tsx⟩,
  ⟨0xBC, .ldy, .absx, 4, .f3 .ldyAbsX⟩,
  ⟨0xBD, .lda, .absx, 4, .f3 .ldaAbsX⟩,
  ⟨0xBE, .ldx, .absy, 4, .f3 .ldxAbsY⟩]

/-- Opcodes C0 to CF (R95). -/
def opcodeRowC : List Row := [
  ⟨0xC0, .cpy, .imm, 2, .f2 .cpyImm⟩,
  ⟨0xC1, .cmp, .indx, 6, .f2 .cmpIndX⟩,
  ⟨0xC4, .cpy, .zp, 3, .f2 .cpyZp⟩,
  ⟨0xC5, .cmp, .zp, 3, .f2 .cmpZp⟩,
  ⟨0xC6, .dec, .zp, 5, .f2 .decZp⟩,
  ⟨0xC8, .iny, .impl, 2, .f1 .iny⟩,
  ⟨0xC9, .cmp, .imm, 2, .f2 .cmpImm⟩,
  ⟨0xCA, .dex, .impl, 2, .f1 .dex⟩,
  ⟨0xCC, .cpy, .abs, 4, .f3 .cpyAbs⟩,
  ⟨0xCD, .cmp, .abs, 4, .f3 .cmpAbs⟩,
  ⟨0xCE, .dec, .abs, 6, .f3 .decAbs⟩]

/-- Opcodes D0 to DF (R95). -/
def opcodeRowD : List Row := [
  ⟨0xD0, .bne, .rel, 2, .f2rel .bne⟩,
  ⟨0xD1, .cmp, .indy, 5, .f2 .cmpIndY⟩,
  ⟨0xD5, .cmp, .zpx, 4, .f2 .cmpZpX⟩,
  ⟨0xD6, .dec, .zpx, 6, .f2 .decZpX⟩,
  ⟨0xD8, .cld, .impl, 2, .f1 .cld⟩,
  ⟨0xD9, .cmp, .absy, 4, .f3 .cmpAbsY⟩,
  ⟨0xDD, .cmp, .absx, 4, .f3 .cmpAbsX⟩,
  ⟨0xDE, .dec, .absx, 7, .f3 .decAbsX⟩]

/-- Opcodes E0 to EF (R95). -/
def opcodeRowE : List Row := [
  ⟨0xE0, .cpx, .imm, 2, .f2 .cpxImm⟩,
  ⟨0xE1, .sbc, .indx, 6, .f2 .sbcIndX⟩,
  ⟨0xE4, .cpx, .zp, 3, .f2 .cpxZp⟩,
  ⟨0xE5, .sbc, .zp, 3, .f2 .sbcZp⟩,
  ⟨0xE6, .inc, .zp, 5, .f2 .incZp⟩,
  ⟨0xE8, .inx, .impl, 2, .f1 .inx⟩,
  ⟨0xE9, .sbc, .imm, 2, .f2 .sbcImm⟩,
  ⟨0xEA, .nop, .impl, 2, .f1 .nop⟩,
  ⟨0xEC, .cpx, .abs, 4, .f3 .cpxAbs⟩,
  ⟨0xED, .sbc, .abs, 4, .f3 .sbcAbs⟩,
  ⟨0xEE, .inc, .abs, 6, .f3 .incAbs⟩]

/-- Opcodes F0 to FF (R95). -/
def opcodeRowF : List Row := [
  ⟨0xF0, .beq, .rel, 2, .f2rel .beq⟩,
  ⟨0xF1, .sbc, .indy, 5, .f2 .sbcIndY⟩,
  ⟨0xF5, .sbc, .zpx, 4, .f2 .sbcZpX⟩,
  ⟨0xF6, .inc, .zpx, 6, .f2 .incZpX⟩,
  ⟨0xF8, .sed, .impl, 2, .f1 .sed⟩,
  ⟨0xF9, .sbc, .absy, 4, .f3 .sbcAbsY⟩,
  ⟨0xFD, .sbc, .absx, 4, .f3 .sbcAbsX⟩,
  ⟨0xFE, .inc, .absx, 7, .f3 .incAbsX⟩]

/-- The instruction table, 151 rows in opcode order (R95, R96, R101, R262). -/
def opcodeTable : List Row :=
  opcodeRow0 ++ opcodeRow1 ++ opcodeRow2 ++ opcodeRow3 ++
  opcodeRow4 ++ opcodeRow5 ++ opcodeRow6 ++ opcodeRow7 ++
  opcodeRow8 ++ opcodeRow9 ++ opcodeRowA ++ opcodeRowB ++
  opcodeRowC ++ opcodeRowD ++ opcodeRowE ++ opcodeRowF

/-- The opcodes with a given high nibble: a line of the matrix of R95. -/
def opcodeLine (hi : Nat) : List Row :=
  match hi with
  | 0 => opcodeRow0 | 1 => opcodeRow1 | 2 => opcodeRow2 | 3 => opcodeRow3
  | 4 => opcodeRow4 | 5 => opcodeRow5 | 6 => opcodeRow6 | 7 => opcodeRow7
  | 8 => opcodeRow8 | 9 => opcodeRow9 | 10 => opcodeRowA | 11 => opcodeRowB
  | 12 => opcodeRowC | 13 => opcodeRowD | 14 => opcodeRowE | _ => opcodeRowF

/-- `Decode(op)` of R94: the row of an assigned opcode, nothing for an invalid one (R98). -/
def opcodeRow? (op : Byte) : Option Row :=
  (opcodeLine (op.toNat / 16)).find? (fun r => r.opcode == op)

/-- Why bytes do not decode. -/
inductive DecodeError where
  /-- The first byte is one of the 105 unassigned opcodes (R98). -/
  | invalidOpcode (op : Byte)
  /-- No byte at all was given. -/
  | noBytes
  /-- An operand byte is missing from the list given to the decoder. -/
  | truncated (op : Byte)
  deriving DecidableEq, Repr

/-- What the decoder answers: an instruction and the bytes after it, or a rejection by name. -/
inductive DecodeResult where
  | decoded (i : Instr) (rest : List Byte)
  | rejected (e : DecodeError)
  deriving DecidableEq, Repr

/-- Assemble the operand of a row's instruction from the bytes after the opcode (R92, R93). -/
def Row.build (r : Row) (operands : List Byte) : DecodeResult :=
  match r.form, operands with
  | .f1 i, rest => .decoded i rest
  | .f2 make, b1 :: rest => .decoded (make b1) rest
  | .f2rel make, b1 :: rest => .decoded (make b1.toInt) rest
  | .f3 make, b1 :: b2 :: rest => .decoded (make (wordOf b1 b2)) rest
  | .f2 _, [] => .rejected (.truncated r.opcode)
  | .f2rel _, [] => .rejected (.truncated r.opcode)
  | .f3 _, [] => .rejected (.truncated r.opcode)
  | .f3 _, [_] => .rejected (.truncated r.opcode)

/-- Decode the instruction at the front of a list of bytes (R90, R92 to R94, R100). -/
def decode : List Byte → DecodeResult
  | [] => .rejected .noBytes
  | op :: operands =>
    match opcodeRow? op with
    | none => .rejected (.invalidOpcode op)
    | some r => r.build operands

/-- The number of operand bytes an opcode asks for, nothing for an invalid one (R90, R98). -/
def operandCount? (op : Byte) : Option Nat := (opcodeRow? op).map fun r => r.mode.operandBytes

/-- The mnemonic of an instruction (R96). -/
def Instr.mnemonic : Instr → Mnemonic
  | .ldaImm _ | .ldaZp _ | .ldaZpX _ | .ldaAbs _ | .ldaAbsX _ | .ldaAbsY _ | .ldaIndX _
  | .ldaIndY _ => .lda
  | .ldxImm _ | .ldxZp _ | .ldxZpY _ | .ldxAbs _ | .ldxAbsY _ => .ldx
  | .ldyImm _ | .ldyZp _ | .ldyZpX _ | .ldyAbs _ | .ldyAbsX _ => .ldy
  | .staZp _ | .staZpX _ | .staAbs _ | .staAbsX _ | .staAbsY _ | .staIndX _ | .staIndY _ => .sta
  | .stxZp _ | .stxZpY _ | .stxAbs _ => .stx
  | .styZp _ | .styZpX _ | .styAbs _ => .sty
  | .tax => .tax
  | .tay => .tay
  | .txa => .txa
  | .tya => .tya
  | .tsx => .tsx
  | .txs => .txs
  | .adcImm _ | .adcZp _ | .adcZpX _ | .adcAbs _ | .adcAbsX _ | .adcAbsY _ | .adcIndX _
  | .adcIndY _ => .adc
  | .sbcImm _ | .sbcZp _ | .sbcZpX _ | .sbcAbs _ | .sbcAbsX _ | .sbcAbsY _ | .sbcIndX _
  | .sbcIndY _ => .sbc
  | .andImm _ | .andZp _ | .andZpX _ | .andAbs _ | .andAbsX _ | .andAbsY _ | .andIndX _
  | .andIndY _ => .and
  | .oraImm _ | .oraZp _ | .oraZpX _ | .oraAbs _ | .oraAbsX _ | .oraAbsY _ | .oraIndX _
  | .oraIndY _ => .ora
  | .eorImm _ | .eorZp _ | .eorZpX _ | .eorAbs _ | .eorAbsX _ | .eorAbsY _ | .eorIndX _
  | .eorIndY _ => .eor
  | .cmpImm _ | .cmpZp _ | .cmpZpX _ | .cmpAbs _ | .cmpAbsX _ | .cmpAbsY _ | .cmpIndX _
  | .cmpIndY _ => .cmp
  | .cpxImm _ | .cpxZp _ | .cpxAbs _ => .cpx
  | .cpyImm _ | .cpyZp _ | .cpyAbs _ => .cpy
  | .bitZp _ | .bitAbs _ => .bit
  | .incZp _ | .incZpX _ | .incAbs _ | .incAbsX _ => .inc
  | .decZp _ | .decZpX _ | .decAbs _ | .decAbsX _ => .dec
  | .inx => .inx
  | .iny => .iny
  | .dex => .dex
  | .dey => .dey
  | .aslAcc | .aslZp _ | .aslZpX _ | .aslAbs _ | .aslAbsX _ => .asl
  | .lsrAcc | .lsrZp _ | .lsrZpX _ | .lsrAbs _ | .lsrAbsX _ => .lsr
  | .rolAcc | .rolZp _ | .rolZpX _ | .rolAbs _ | .rolAbsX _ => .rol
  | .rorAcc | .rorZp _ | .rorZpX _ | .rorAbs _ | .rorAbsX _ => .ror
  | .bcc _ => .bcc
  | .bcs _ => .bcs
  | .beq _ => .beq
  | .bne _ => .bne
  | .bmi _ => .bmi
  | .bpl _ => .bpl
  | .bvc _ => .bvc
  | .bvs _ => .bvs
  | .jmpAbs _ | .jmpInd _ => .jmp
  | .jsr _ => .jsr
  | .rts => .rts
  | .pha => .pha
  | .pla => .pla
  | .php => .php
  | .plp => .plp
  | .clc => .clc
  | .sec => .sec
  | .cli => .cli
  | .sei => .sei
  | .clv => .clv
  | .cld => .cld
  | .sed => .sed
  | .brk => .brk
  | .rti => .rti
  | .nop => .nop

/-- The operand of an instruction: its mode and what its operand bytes say (R93, R96). -/
def Instr.operand : Instr → Operand
  | .tax | .tay | .txa | .tya | .tsx | .txs | .inx | .iny | .dex | .dey | .rts | .pha | .pla
  | .php | .plp | .clc | .sec | .cli | .sei | .clv | .cld | .sed | .brk | .rti | .nop => .impl
  | .aslAcc | .lsrAcc | .rolAcc | .rorAcc => .acc
  | .ldaImm b1 | .ldxImm b1 | .ldyImm b1 | .adcImm b1 | .sbcImm b1 | .andImm b1 | .oraImm b1
  | .eorImm b1 | .cmpImm b1 | .cpxImm b1 | .cpyImm b1 => .imm b1
  | .ldaZp b1 | .ldxZp b1 | .ldyZp b1 | .staZp b1 | .stxZp b1 | .styZp b1 | .adcZp b1
  | .sbcZp b1 | .andZp b1 | .oraZp b1 | .eorZp b1 | .cmpZp b1 | .cpxZp b1 | .cpyZp b1
  | .bitZp b1 | .incZp b1 | .decZp b1 | .aslZp b1 | .lsrZp b1 | .rolZp b1 | .rorZp b1 => .mem (.zp b1)
  | .ldaZpX b1 | .ldyZpX b1 | .staZpX b1 | .styZpX b1 | .adcZpX b1 | .sbcZpX b1 | .andZpX b1
  | .oraZpX b1 | .eorZpX b1 | .cmpZpX b1 | .incZpX b1 | .decZpX b1 | .aslZpX b1 | .lsrZpX b1
  | .rolZpX b1 | .rorZpX b1 => .mem (.zpx b1)
  | .ldxZpY b1 | .stxZpY b1 => .mem (.zpy b1)
  | .bcc disp | .bcs disp | .beq disp | .bne disp | .bmi disp | .bpl disp | .bvc disp
  | .bvs disp => .rel disp
  | .ldaAbs w | .ldxAbs w | .ldyAbs w | .staAbs w | .stxAbs w | .styAbs w | .adcAbs w
  | .sbcAbs w | .andAbs w | .oraAbs w | .eorAbs w | .cmpAbs w | .cpxAbs w | .cpyAbs w
  | .bitAbs w | .incAbs w | .decAbs w | .aslAbs w | .lsrAbs w | .rolAbs w | .rorAbs w
  | .jmpAbs w | .jsr w => .mem (.abs w)
  | .ldaAbsX w | .ldyAbsX w | .staAbsX w | .adcAbsX w | .sbcAbsX w | .andAbsX w | .oraAbsX w
  | .eorAbsX w | .cmpAbsX w | .incAbsX w | .decAbsX w | .aslAbsX w | .lsrAbsX w | .rolAbsX w
  | .rorAbsX w => .mem (.absx w)
  | .ldaAbsY w | .ldxAbsY w | .staAbsY w | .adcAbsY w | .sbcAbsY w | .andAbsY w | .oraAbsY w
  | .eorAbsY w | .cmpAbsY w => .mem (.absy w)
  | .jmpInd w => .ind w
  | .ldaIndX b1 | .staIndX b1 | .adcIndX b1 | .sbcIndX b1 | .andIndX b1 | .oraIndX b1
  | .eorIndX b1 | .cmpIndX b1 => .mem (.indx b1)
  | .ldaIndY b1 | .staIndY b1 | .adcIndY b1 | .sbcIndY b1 | .andIndY b1 | .oraIndY b1
  | .eorIndY b1 | .cmpIndY b1 => .mem (.indy b1)

/-- The opcode byte of an instruction (R96). -/
def Instr.opcode : Instr → Byte
  | .ldaImm _ => 0xA9 | .ldaZp _ => 0xA5 | .ldaZpX _ => 0xB5 | .ldaAbs _ => 0xAD
  | .ldaAbsX _ => 0xBD | .ldaAbsY _ => 0xB9 | .ldaIndX _ => 0xA1 | .ldaIndY _ => 0xB1
  | .ldxImm _ => 0xA2 | .ldxZp _ => 0xA6 | .ldxZpY _ => 0xB6 | .ldxAbs _ => 0xAE
  | .ldxAbsY _ => 0xBE | .ldyImm _ => 0xA0 | .ldyZp _ => 0xA4 | .ldyZpX _ => 0xB4
  | .ldyAbs _ => 0xAC | .ldyAbsX _ => 0xBC | .staZp _ => 0x85 | .staZpX _ => 0x95
  | .staAbs _ => 0x8D | .staAbsX _ => 0x9D | .staAbsY _ => 0x99 | .staIndX _ => 0x81
  | .staIndY _ => 0x91 | .stxZp _ => 0x86 | .stxZpY _ => 0x96 | .stxAbs _ => 0x8E
  | .styZp _ => 0x84 | .styZpX _ => 0x94 | .styAbs _ => 0x8C | .tax => 0xAA | .tay => 0xA8
  | .txa => 0x8A | .tya => 0x98 | .tsx => 0xBA | .txs => 0x9A | .adcImm _ => 0x69
  | .adcZp _ => 0x65 | .adcZpX _ => 0x75 | .adcAbs _ => 0x6D | .adcAbsX _ => 0x7D
  | .adcAbsY _ => 0x79 | .adcIndX _ => 0x61 | .adcIndY _ => 0x71 | .sbcImm _ => 0xE9
  | .sbcZp _ => 0xE5 | .sbcZpX _ => 0xF5 | .sbcAbs _ => 0xED | .sbcAbsX _ => 0xFD
  | .sbcAbsY _ => 0xF9 | .sbcIndX _ => 0xE1 | .sbcIndY _ => 0xF1 | .andImm _ => 0x29
  | .andZp _ => 0x25 | .andZpX _ => 0x35 | .andAbs _ => 0x2D | .andAbsX _ => 0x3D
  | .andAbsY _ => 0x39 | .andIndX _ => 0x21 | .andIndY _ => 0x31 | .oraImm _ => 0x09
  | .oraZp _ => 0x05 | .oraZpX _ => 0x15 | .oraAbs _ => 0x0D | .oraAbsX _ => 0x1D
  | .oraAbsY _ => 0x19 | .oraIndX _ => 0x01 | .oraIndY _ => 0x11 | .eorImm _ => 0x49
  | .eorZp _ => 0x45 | .eorZpX _ => 0x55 | .eorAbs _ => 0x4D | .eorAbsX _ => 0x5D
  | .eorAbsY _ => 0x59 | .eorIndX _ => 0x41 | .eorIndY _ => 0x51 | .cmpImm _ => 0xC9
  | .cmpZp _ => 0xC5 | .cmpZpX _ => 0xD5 | .cmpAbs _ => 0xCD | .cmpAbsX _ => 0xDD
  | .cmpAbsY _ => 0xD9 | .cmpIndX _ => 0xC1 | .cmpIndY _ => 0xD1 | .cpxImm _ => 0xE0
  | .cpxZp _ => 0xE4 | .cpxAbs _ => 0xEC | .cpyImm _ => 0xC0 | .cpyZp _ => 0xC4
  | .cpyAbs _ => 0xCC | .bitZp _ => 0x24 | .bitAbs _ => 0x2C | .incZp _ => 0xE6
  | .incZpX _ => 0xF6 | .incAbs _ => 0xEE | .incAbsX _ => 0xFE | .decZp _ => 0xC6
  | .decZpX _ => 0xD6 | .decAbs _ => 0xCE | .decAbsX _ => 0xDE | .inx => 0xE8 | .iny => 0xC8
  | .dex => 0xCA | .dey => 0x88 | .aslAcc => 0x0A | .aslZp _ => 0x06 | .aslZpX _ => 0x16
  | .aslAbs _ => 0x0E | .aslAbsX _ => 0x1E | .lsrAcc => 0x4A | .lsrZp _ => 0x46
  | .lsrZpX _ => 0x56 | .lsrAbs _ => 0x4E | .lsrAbsX _ => 0x5E | .rolAcc => 0x2A
  | .rolZp _ => 0x26 | .rolZpX _ => 0x36 | .rolAbs _ => 0x2E | .rolAbsX _ => 0x3E
  | .rorAcc => 0x6A | .rorZp _ => 0x66 | .rorZpX _ => 0x76 | .rorAbs _ => 0x6E
  | .rorAbsX _ => 0x7E | .bcc _ => 0x90 | .bcs _ => 0xB0 | .beq _ => 0xF0 | .bne _ => 0xD0
  | .bmi _ => 0x30 | .bpl _ => 0x10 | .bvc _ => 0x50 | .bvs _ => 0x70 | .jmpAbs _ => 0x4C
  | .jmpInd _ => 0x6C | .jsr _ => 0x20 | .rts => 0x60 | .pha => 0x48 | .pla => 0x68
  | .php => 0x08 | .plp => 0x28 | .clc => 0x18 | .sec => 0x38 | .cli => 0x58 | .sei => 0x78
  | .clv => 0xB8 | .cld => 0xD8 | .sed => 0xF8 | .brk => 0x00 | .rti => 0x40 | .nop => 0xEA

/-- The operand bytes of a memory operand, low byte first (R92, R93). -/
def MemOperand.bytes : MemOperand → List Byte
  | .zp b1 | .zpx b1 | .zpy b1 | .indx b1 | .indy b1 => [b1]
  | .abs w | .absx w | .absy w => [loByte w, hiByte w]

/-- The operand bytes of an operand (R92, R93): a displacement is stored in two's complement. -/
def Operand.bytes : Operand → List Byte
  | .impl | .acc => []
  | .imm b1 => [b1]
  | .mem m => m.bytes
  | .rel disp => [BitVec.ofInt 8 disp]
  | .ind w => [loByte w, hiByte w]

/-- The bytes of an instruction, opcode first (R92). -/
def encode (i : Instr) : List Byte := i.opcode :: i.operand.bytes

/-- The length of an instruction in bytes, `1 + n` (R90). -/
def Instr.length (i : Instr) : Nat := 1 + i.operand.mode.operandBytes

/-- The base cycle cost of an instruction, from its row of the table (R94, R262). -/
def Instr.base (i : Instr) : Nat :=
  match opcodeRow? i.opcode with
  | none => 0
  | some r => r.base

/-- The first three bytes of an instruction given as one number, bit 0 the least significant bit of
its first byte; bits from `nbits` up are 0. -/
def tableBytes (nbits w : Nat) : List Byte :=
  [BitVec.ofNat 8 (w % 2 ^ nbits), BitVec.ofNat 8 (w % 2 ^ nbits / 2 ^ 8),
    BitVec.ofNat 8 (w % 2 ^ nbits / 2 ^ 16)]

/-- The instruction the decoder reads from an instruction whose bits are `w`, numbered as the opcode
table numbers them. -/
def decodeTableWord (nbits w : Nat) : Option Instr :=
  match decode (tableBytes nbits w) with
  | .decoded i _ => some i
  | .rejected _ => none

end Sys2Proof
end

