-- ==== Sys2Proof/Machine/Flags.lean ====
section
/-! DEFINITION. The status register's bits (R22) and every computation that writes them: the
arithmetic of R159 to R180 as functions of bytes and of `P`. A function that gives a result and a new
`P` answers the pair (result, `P`). -/

namespace Sys2Proof.Machine

/-- The eight flags of `P` (R22). -/
inductive Flag where
  | c | z | i | d | b | u | v | n
  deriving DecidableEq, Repr

/-- The bit of `P` a flag is (R22). -/
def Flag.bit : Flag → Nat
  | .c => 0 | .z => 1 | .i => 2 | .d => 3 | .b => 4 | .u => 5 | .v => 6 | .n => 7

/-- Read one flag of `P` (R11). -/
def flag (p : Byte) (f : Flag) : Bool := p.getLsbD f.bit

/-- Write one flag of `P` and leave the others (R11). -/
def setFlag (p : Byte) (f : Flag) (value : Bool) : Byte :=
  if value then p ||| (1#8 <<< f.bit) else p &&& ~~~(1#8 <<< f.bit)

/-- `SetNZ(v)` (R11). -/
def setNZ (p v : Byte) : Byte := setFlag (setFlag p .z (v == 0)) .n v.msb

/-- `P | 0x30`, the byte PHP and BRK push (R25, R203, R212). -/
def pushedStatus (p : Byte) : Byte := p ||| 0x30

/-- `(t & 0xCF) | (P & 0x30)`, what PLP and RTI make of the pulled byte `t` (R25, R204, R213). -/
def pulledStatus (p t : Byte) : Byte := (t &&& 0xCF) ||| (p &&& 0x30)

/-- ADC: `A + M + C` exactly, then narrowed (R161). -/
def adc (a m p : Byte) : Byte × Byte :=
  let t := a.toNat + m.toNat + (flag p .c).toNat
  let r := BitVec.ofNat 8 t
  let v := ((a ^^^ r) &&& (m ^^^ r) &&& 0x80) != 0
  (r, setNZ (setFlag (setFlag p .c (decide (255 < t))) .v v) r)

/-- SBC: ADC of the complemented operand (R162). -/
def sbc (a m p : Byte) : Byte × Byte := adc a (m ^^^ 0xFF) p

/-- The result of a load, a logical operation or a transfer, with `Z` and `N` from it (R141, R147,
R163). -/
def passNZ (v p : Byte) : Byte × Byte := (v, setNZ p v)

/-- The flags of CMP, CPX, CPY on register `r` (R166 to R168). -/
def compareFlags (r m p : Byte) : Byte :=
  setFlag (setFlag (setFlag p .c (decide (m.toNat ≤ r.toNat))) .z (r == m)) .n (r - m).msb

/-- The flags of BIT (R169). -/
def bitTest (a m p : Byte) : Byte :=
  setFlag (setFlag (setFlag p .z ((a &&& m) == 0)) .n (m.getLsbD 7)) .v (m.getLsbD 6)

/-- `(v + 1) mod 256` (R171, R173, R174). -/
def incByte (v p : Byte) : Byte × Byte := passNZ (v + 1) p

/-- `(v - 1) mod 256` (R172, R175, R176). -/
def decByte (v p : Byte) : Byte × Byte := passNZ (v - 1) p

/-- ASL: `C` from bit 7, 0 into bit 0 (R177). -/
def aslByte (v p : Byte) : Byte × Byte :=
  passNZ (v <<< 1) (setFlag p .c (v.getLsbD 7))

/-- LSR: `C` from bit 0, 0 into bit 7 (R178). -/
def lsrByte (v p : Byte) : Byte × Byte :=
  passNZ (v >>> 1) (setFlag p .c (v.getLsbD 0))

/-- ROL: the old `C` into bit 0, `C` from bit 7 (R179). -/
def rolByte (v p : Byte) : Byte × Byte :=
  passNZ ((v <<< 1) ||| (if flag p .c then 0x01 else 0x00)) (setFlag p .c (v.getLsbD 7))

/-- ROR: the old `C` into bit 7, `C` from bit 0 (R180). -/
def rorByte (v p : Byte) : Byte × Byte :=
  passNZ ((v >>> 1) ||| (if flag p .c then 0x80 else 0x00)) (setFlag p .c (v.getLsbD 0))

end Sys2Proof.Machine
end

