-- ==== Sys2Proof/Config.lean ====
section
/-! DEFINITION. What an implementation fixes (the parameters of R9) and the values the spec leaves
free. The record `Config` is plain data and stands in `State` (log 1): a statement about every state
is a statement about every configuration. The free values are constants with no body. -/

namespace Sys2Proof

/-- The parameters of R9 and the two cartridge buffers of R8; none changes after reset. `prg` and `chr`
list the bytes of the program-ROM and the graphics-bank buffer by index; an index not listed holds 0x00
(log 4). -/
structure Config where
  /-- `PRG_BANKS`: number of 16 KiB program-ROM banks, at least 1 (R9, R57). -/
  prgBanks : Nat
  /-- `PRG`: contents of program ROM (R9, R29). -/
  prg : List Host.Cell
  /-- `CHR_BANKS`: number of 8 KiB graphics banks, may be 0 (R9). -/
  chrBanks : Nat
  /-- `CHR`: contents of the graphics banks as the host supplies them (R8, R29). No CPU address reaches
  them; the co-processor holds them (R68). -/
  chr : List Host.Cell
  /-- `SRAM_SIZE`: 0 (absent) or a multiple of 256 up to 8192 (R9, R56). -/
  sramSize : Nat
  /-- `MAPPER_ID`: accepted and ignored (R68). -/
  mapperId : Byte
  /-- `PPU_PER_CPU`: co-processor cycles per CPU cycle, positive; OPEN in the spec (R9, D3). -/
  ppuPerCpu : Nat
  /-- `JMP_IND_WRAP`: whether an indirect jump's pointer wraps in its page; OPEN (R9, D2). -/
  jmpIndWrap : Bool
  deriving DecidableEq, Repr

/-- `PRG` has `16384 * PRG_BANKS` bytes (R9). -/
def Config.prgSize (cfg : Config) : Nat := 16384 * cfg.prgBanks

/-- `CHR` has `8192 * CHR_BANKS` bytes (R8, R29). -/
def Config.chrSize (cfg : Config) : Nat := 8192 * cfg.chrBanks

/-- The constraints of R9: a configuration that breaks one is not admitted (R57, U9). -/
def Config.valid (cfg : Config) : Bool :=
  decide (1 ≤ cfg.prgBanks) && decide (cfg.sramSize % 256 = 0) && decide (cfg.sramSize ≤ 8192)
    && decide (1 ≤ cfg.ppuPerCpu)

/-- The configuration of `State.reset`: one bank, no byte of it listed, no graphics bank, the save RAM of
the document's data model, the suggested ratio 3. DESIGN CHOICE, log 2. -/
def Config.base : Config :=
  { prgBanks := 1, prg := [], chrBanks := 0, chr := [], sramSize := 8192, mapperId := 0x00,
    ppuPerCpu := 3, jmpIndWrap := true }

/-- One call the bus makes of the co-processor's interface (R33). -/
inductive PpuEvent where
  /-- `PpuCatchUp(ppu, t)`: run until the co-processor's own time is `t`. -/
  | catchUp (t : Nat)
  /-- `PpuRegRead(ppu, r)`: register `r` was sampled. -/
  | read (r : BitVec 3)
  /-- `PpuRegWrite(ppu, r, v)`: byte `v` was handed over for register `r`. -/
  | write (r : BitVec 3) (v : Byte)
  deriving DecidableEq, Repr

/-- The co-processor's opaque state (R33), held as the calls made since `PpuInit`, newest first: whatever
the co-processor is, its state is a function of them and of the graphics banks it was handed, its
parameter (R29, R68), which `Config.chr` keeps. DESIGN CHOICE, log 6. -/
abbrev PpuState := List PpuEvent

/-- FREE VALUE (R33, U6): the byte that a co-processor handed `chrBanks` graphics banks with contents `chr`
supplies when register `r` is sampled in state `ppu`. Nothing constrains it. Log 6. -/
opaque Config.ppuRegValue (chrBanks : Nat) (chr : List Host.Cell) : PpuState → BitVec 3 → Byte

/-- FREE VALUE (R252, U4): `WRAM_INIT`, what work-RAM cell `i` holds before anything writes it.
Log 3. -/
opaque Config.wramInit : Nat → Byte

/-- FREE VALUE (R252, U4): `SRAM_INIT`, what save-RAM cell `i` holds before anything writes it.
Log 3. -/
opaque Config.sramInit : Nat → Byte

end Sys2Proof
end

