-- ==== Sys2Proof/Machine/Memory.lean ====
section
/-! DEFINITION. Storage buffers (R29) as lists of (index, byte) cells in one canonical form: indices
strictly rising and below the buffer's size. A cell that is not listed has no byte of its own here;
what it reads as is said once, in `State.unlisted` (`Ops.lean`). -/

namespace Sys2Proof.Machine

/-- The listed cells of one buffer, each buffer "indexed from 0" (R29). -/
abbrev Memory := List Host.Cell

/-- The byte listed for cell `i`, if one is. -/
def Memory.byte? : Memory → Nat → Option Byte
  | [], _ => none
  | (k, v) :: m, i => if k = i then some v else Memory.byte? m i

/-- List byte `v` for cell `i`, in index order, in place of what was listed for it. -/
def Memory.put : Memory → Nat → Byte → Memory
  | [], i, v => [(i, v)]
  | (k, w) :: m, i, v =>
    if i < k then (i, v) :: (k, w) :: m
    else if i = k then (i, v) :: m
    else (k, w) :: Memory.put m i v

/-- Take cell `i` out of the list. -/
def Memory.erase : Memory → Nat → Memory
  | [], _ => []
  | (k, w) :: m, i => if k = i then m else (k, w) :: Memory.erase m i

/-- Write byte `v` to cell `i` of a buffer whose unlisted cells read as the fixed byte `fill`: that
byte is never listed. -/
def Memory.putOver (fill : Byte) (m : Memory) (i : Nat) (v : Byte) : Memory :=
  if v = fill then m.erase i else m.put i v

/-- Indices strictly rising from `lo` on and all below `size`. -/
def Memory.wfFrom (size : Nat) : Nat → Memory → Bool
  | _, [] => true
  | lo, (k, _) :: m => decide (lo ≤ k) && decide (k < size) && Memory.wfFrom size (k + 1) m

/-- The canonical form of a buffer of `size` bytes. -/
def Memory.wf (size : Nat) (m : Memory) : Bool := Memory.wfFrom size 0 m

/-- The canonical form of a buffer of `size` bytes whose unlisted cells read as `fill`: besides,
no cell is listed with that byte. -/
def Memory.wfOver (fill : Byte) (size : Nat) (m : Memory) : Bool :=
  Memory.wf size m && m.all fun c => c.2 != fill

end Sys2Proof.Machine
end

