-- ==== Sys2Proof/Machine/State.lean ====
section
/-! DEFINITION. The machine's state as plain data (R40), the state after reset (R38), and the two
closed types of what can go wrong. -/

namespace Sys2Proof.Machine

/-- The state record of R40, with the constant parameters of R9 beside it (log 1). -/
structure State where
  /-- `A`, accumulator (R20). -/
  a : Byte
  /-- `X`, index register (R20). -/
  x : Byte
  /-- `Y`, index register (R20). -/
  y : Byte
  /-- `SP`, low byte of the stack address (R27). -/
  sp : Byte
  /-- `P`, the status register, whole (R22); `Flags.lean` names its bits. -/
  p : Byte
  /-- `PC`, between steps the address of the next opcode (R26). -/
  pc : Addr
  /-- `WRAM`, 2048 bytes (R29): the cells written so far; the others are free values (log 3). -/
  wram : Memory
  /-- `SRAM`, `SRAM_SIZE` bytes (R29), as `wram`. -/
  sram : Memory
  /-- `latch`, the last value driven on the bus (R31). -/
  latch : Byte
  /-- `cpu_cycles`, a natural number that never wraps (R32). -/
  cpuCycles : Nat
  /-- `ppu_cycles`, a natural number that never wraps (R32). -/
  ppuCycles : Nat
  /-- `ppu`, the co-processor's opaque state (R33, log 6). -/
  ppu : PpuState
  /-- `halted`: the address and byte of the invalid opcode that stopped the core (R34). -/
  halted : Option (Addr × Byte)
  /-- The parameters of R9; no step changes them (R9, R37). -/
  cfg : Config
  deriving DecidableEq, Repr

/-- The one fault of the block (R220, R223). -/
inductive Fault where
  /-- `InvalidOpcode(addr, byte)` of R221 to R223. Raised by the step that fetches an unassigned
  opcode, which records it in `State.halted` and answers a next state, as R221 describes it (log 7);
  `run` reports it to the host (R222). No step answers `Outcome.fault`. Safe. -/
  | invalidOpcode (addr : Addr) (byte : Byte)
  deriving DecidableEq, Repr

/-- Why the model gives no meaning. -/
inductive Refusal where
  /-- The instruction has no meaning yet. Raised by arms of `exec` only; there is none. Safe. -/
  | notModelled (mnemonic : String)
  /-- The configuration is not admitted (R9, R57, U9: "refuse"). Raised by `step`. Safe. Log 8. -/
  | invalidConfiguration
  deriving DecidableEq, Repr

/-- What a meaning answers. -/
abbrev Answer := Host.Outcome State Fault Refusal

/-- The machine right after reset (R38, R250), with the configuration `Config.base`: `PC` and the
latch come from that configuration's reset vector, whose two bytes are not listed and so 0x00
(log 2, log 4). `State.powerOn` is the procedure of R250 for every configuration. -/
def State.reset : State :=
  { a := 0x00, x := 0x00, y := 0x00, sp := 0xFF, p := 0x00, pc := 0x0000, wram := [], sram := [],
    latch := 0x00, cpuCycles := 0, ppuCycles := 0, ppu := [], halted := none, cfg := Config.base }

end Sys2Proof.Machine
end

