-- ==== Sys2Proof/Machine/Ops.lean ====
section
/-! DEFINITION. The named operations over registers, the bus, the stack, and the entry to and return
from the software interrupt; the reset procedure. Every access goes through `busRead` and `busWrite`,
every stack access through `push` and `pull`. -/

namespace Sys2Proof.Machine

/-! ## Registers -/

/-- `A <- v` (R11). -/
def State.setA (s : State) (v : Byte) : State := { s with a := v }
/-- `X <- v` (R11). -/
def State.setX (s : State) (v : Byte) : State := { s with x := v }
/-- `Y <- v` (R11). -/
def State.setY (s : State) (v : Byte) : State := { s with y := v }
/-- `SP <- v` (R11). -/
def State.setSp (s : State) (v : Byte) : State := { s with sp := v }
/-- `P <- v` (R11). -/
def State.setP (s : State) (v : Byte) : State := { s with p := v }
/-- `pc <- target` (R11). -/
def State.setPc (s : State) (target : Addr) : State := { s with pc := target }
/-- `latch <- v` (R31). -/
def State.setLatch (s : State) (v : Byte) : State := { s with latch := v }
/-- Advance `PC` by `n` bytes, modulo 65536 (R26). -/
def State.advance (s : State) (n : Nat) : State := s.setPc (s.pc + BitVec.ofNat 16 n)
/-- `cpu_cycles <- cpu_cycles + n` (R132). -/
def State.tick (s : State) (n : Nat) : State := { s with cpuCycles := s.cpuCycles + n }
/-- The co-processor's state and time (R33, R32). -/
def State.setPpu (s : State) (ppu : PpuState) (t : Nat) : State :=
  { s with ppu := ppu, ppuCycles := t }
/-- `halted <- (pc0, op)` (R221). -/
def State.halt (s : State) (op : Byte) : State := { s with halted := some (s.pc, op) }

/-- A result for `A` with the flags that come with it. -/
def State.withA (s : State) (r : Byte × Byte) : State := (s.setA r.1).setP r.2
/-- A result for `X` with the flags that come with it. -/
def State.withX (s : State) (r : Byte × Byte) : State := (s.setX r.1).setP r.2
/-- A result for `Y` with the flags that come with it. -/
def State.withY (s : State) (r : Byte × Byte) : State := (s.setY r.1).setP r.2

/-! ## The address map -/

/-- The storage the bus reaches (R29). -/
inductive Buffer where
  | wram | sram | prg
  deriving DecidableEq, Repr

/-- What an address resolves to (R51). -/
inductive Target where
  | cell (b : Buffer) (i : Nat)
  | gfx (r : BitVec 3)
  | openBus
  deriving DecidableEq, Repr

/-- Whether a target is a cell a store changes: work RAM or save RAM (R61). -/
def Target.isRam : Target → Bool
  | .cell .wram _ => true
  | .cell .sram _ => true
  | .cell .prg _ => false
  | .gfx _ => false
  | .openBus => false

/-- `Translate(a)` (R51). -/
def translateAddr (cfg : Config) (a : Addr) : Target :=
  if a.toNat < 0x2000 then .cell .wram (a &&& 0x07FF).toNat
  else if a.toNat < 0x4000 then .gfx (a.setWidth 3)
  else if a.toNat < 0x6000 then .openBus
  else if a.toNat < 0x8000 then
    if cfg.sramSize = 0 then .openBus else .cell .sram ((a.toNat - 0x6000) % cfg.sramSize)
  else .cell .prg ((a.toNat - 0x8000) % cfg.prgSize)

/-- One of the 256 entries of the page table (R58): a byte offset into a buffer, the graphics
registers, or unmapped. -/
inductive PageEntry where
  | buffer (b : Buffer) (offset : Nat)
  | registers
  | unmapped
  deriving DecidableEq, Repr

/-- The page table's entry for page `p` (R58). -/
def pageEntry (cfg : Config) (p : Byte) : PageEntry :=
  if p.toNat < 0x20 then .buffer .wram (p.toNat % 8 * 256)
  else if p.toNat < 0x40 then .registers
  else if p.toNat < 0x60 then .unmapped
  else if p.toNat < 0x80 then
    if cfg.sramSize = 0 then .unmapped else .buffer .sram ((p.toNat - 0x60) * 256 % cfg.sramSize)
  else .buffer .prg ((p.toNat - 0x80) * 256 % cfg.prgSize)

/-- Byte `low` of the page an entry describes (R58). -/
def PageEntry.target (e : PageEntry) (low : Byte) : Target :=
  match e with
  | .buffer b offset => .cell b (offset + low.toNat)
  | .registers => .gfx (low.setWidth 3)
  | .unmapped => .openBus

/-- What a cell reads as while nothing is listed for it: work RAM and save RAM are free values until
written (R252, log 3), program ROM lists every byte but 0x00 (log 4). -/
def unlisted (b : Buffer) (i : Nat) : Byte :=
  match b with
  | .wram => Config.wramInit i
  | .sram => Config.sramInit i
  | .prg => 0x00

/-- The listed cells of a buffer. -/
def State.buffer (s : State) (b : Buffer) : Memory :=
  match b with
  | .wram => s.wram
  | .sram => s.sram
  | .prg => s.cfg.prg

/-- The byte a cell holds: `WRAM[i]`, `SRAM[i]`, `PRG[i]`. -/
def State.cell (s : State) (b : Buffer) (i : Nat) : Byte :=
  ((s.buffer b).byte? i).getD (unlisted b i)

/-- Store a byte in a cell; program ROM is immutable (R61, R67). -/
def State.store (s : State) (b : Buffer) (i : Nat) (v : Byte) : State :=
  match b with
  | .wram => { s with wram := s.wram.put i v }
  | .sram => { s with sram := s.sram.put i v }
  | .prg => s

/-- The byte stored behind an address, without any effect; nothing where no storage lies (R51). -/
def State.peek (s : State) (a : Addr) : Option Byte :=
  match translateAddr s.cfg a with
  | .cell b i => some (s.cell b i)
  | .gfx _ => none
  | .openBus => none

/-! ## The co-processor's interface -/

/-- The co-processor's own time: the target of the last catch-up (R33). -/
def ppuTime : PpuState → Nat
  | [] => 0
  | .catchUp t :: _ => t
  | .read _ :: ppu => ppuTime ppu
  | .write _ _ :: ppu => ppuTime ppu

/-- `PpuCatchUp(ppu, T)`: nothing happens when `T` is already reached (R33). -/
def ppuCatchUp (ppu : PpuState) (t : Nat) : PpuState :=
  if t ≤ ppuTime ppu then ppu else .catchUp t :: ppu

/-- `PpuRegRead(ppu, r)` of the co-processor that holds this configuration's graphics banks (R68): a free
byte, and the co-processor after the read (R33, log 6). -/
def ppuRegRead (cfg : Config) (ppu : PpuState) (r : BitVec 3) : Byte × PpuState :=
  (Config.ppuRegValue cfg.chrBanks cfg.chr ppu r, .read r :: ppu)

/-- `PpuRegWrite(ppu, r, v)` (R33, R64). -/
def ppuRegWrite (ppu : PpuState) (r : BitVec 3) (v : Byte) : PpuState := .write r v :: ppu

/-- `CatchUp()` (R62). -/
def State.catchUp (s : State) : State :=
  if s.ppuCycles < s.cpuCycles * s.cfg.ppuPerCpu then
    s.setPpu (ppuCatchUp s.ppu (s.cpuCycles * s.cfg.ppuPerCpu)) (s.cpuCycles * s.cfg.ppuPerCpu)
  else s

/-! ## The two bus operations -/

/-- `MemRead(a, 1)`: the byte and the state after the read (R60, R63, R65). -/
def State.busRead (s : State) (a : Addr) : Byte × State :=
  match translateAddr s.cfg a with
  | .cell b i => (s.cell b i, s.setLatch (s.cell b i))
  | .gfx r =>
    let s1 := s.catchUp
    let d := ppuRegRead s.cfg s1.ppu r
    (d.1, (s1.setPpu d.2 s1.ppuCycles).setLatch d.1)
  | .openBus => (s.latch, s)

/-- `MemWrite(a, 1, v)` (R61, R64, R67). -/
def State.busWrite (s : State) (a : Addr) (v : Byte) : State :=
  match translateAddr s.cfg a with
  | .cell b i => (s.store b i v).setLatch v
  | .gfx r =>
    let s1 := s.catchUp
    (s1.setPpu (ppuRegWrite s1.ppu r v) s1.ppuCycles).setLatch v
  | .openBus => s.setLatch v

/-- `zext_16(z)`: a page-0 address (R11). -/
def zeroPage (z : Byte) : Addr := z.setWidth 16

/-- `Read16(a)` (R73). -/
def State.read16 (s : State) (a : Addr) : Addr × State :=
  let lo := s.busRead a
  let hi := lo.2.busRead (a + 1)
  (wordOf lo.1 hi.1, hi.2)

/-- `Read16ZP(z)`: the second address wraps within page 0 (R73). -/
def State.read16Zp (s : State) (z : Byte) : Addr × State :=
  let lo := s.busRead (zeroPage z)
  let hi := lo.2.busRead (zeroPage (z + 1))
  (wordOf lo.1 hi.1, hi.2)

/-- Where an indirect jump finds the high byte of its target (R73, R123). -/
def indirectHigh (cfg : Config) (a : Addr) : Addr :=
  if cfg.jmpIndWrap then wordOf (loByte a + 1) (hiByte a) else a + 1

/-- `Read16Ind(a)` (R73). -/
def State.read16Ind (s : State) (a : Addr) : Addr × State :=
  let lo := s.busRead a
  let hi := lo.2.busRead (indirectHigh s.cfg a)
  (wordOf lo.1 hi.1, hi.2)

/-! ## The stack -/

/-- `0x0100 | SP` (R27). -/
def stackAddr (sp : Byte) : Addr := 0x0100 ||| sp.setWidth 16

/-- `Push(v)` (R27). -/
def State.push (s : State) (v : Byte) : State :=
  (s.busWrite (stackAddr s.sp) v).setSp (s.sp - 1)

/-- `Pull()` (R27). -/
def State.pull (s : State) : Byte × State :=
  (s.setSp (s.sp + 1)).busRead (stackAddr (s.sp + 1))

/-- Push a 16-bit value, high byte first (R69, R195). -/
def State.pushWord (s : State) (v : Addr) : State := (s.push (hiByte v)).push (loByte v)

/-- Pull a 16-bit value, low byte first (R196, R213). -/
def State.pullWord (s : State) : Addr × State :=
  let lo := s.pull
  let hi := lo.2.pull
  (wordOf lo.1 hi.1, hi.2)

/-! ## The software interrupt -/

/-- The vector BRK jumps through (R74, R212). -/
def brkVector : Addr := 0xFFFE

/-- Trap entry (R212, R226): push the return address and `P` with bits 4 and 5 set, set `I`, load
`PC` from the vector. -/
def State.takeTrap (s : State) (ret vector : Addr) : State :=
  let s1 := (s.pushWord ret).push (pushedStatus s.p)
  let s2 := s1.setP (setFlag s1.p .i true)
  let v := s2.read16 vector
  v.2.setPc v.1

/-- Trap return (R213, R227): pull `P` but for bits 4 and 5, then `PC`, with no increment. -/
def State.returnFromTrap (s : State) : State :=
  let t := s.pull
  let w := (t.2.setP (pulledStatus t.2.p t.1)).pullWord
  w.2.setPc w.1

/-! ## Reset -/

/-- The reset vector (R74, R250). -/
def resetVector : Addr := 0xFFFC

/-- The procedure of R250 without its line for the memories: what R251 allows a host to apply as a
warm reset. -/
def State.resetProcedure (s : State) : State :=
  let s1 := { s with a := 0x00, x := 0x00, y := 0x00, sp := 0xFF, p := 0x00, cpuCycles := 0,
                     ppuCycles := 0, ppu := [], halted := none }
  let v := s1.read16 resetVector
  v.2.setPc v.1

/-- `Reset()` of R250, which is power-on (R251), for a configuration, the initial contents of the
memories (the cells not listed are free values) and the latch's unspecified value before it (R252). -/
def State.powerOn (cfg : Config) (wram sram : Memory) (latch : Byte) : State :=
  State.resetProcedure
    { a := 0x00, x := 0x00, y := 0x00, sp := 0xFF, p := 0x00, pc := 0x0000, wram := wram,
      sram := sram, latch := latch, cpuCycles := 0, ppuCycles := 0, ppu := [], halted := none,
      cfg := cfg }

end Sys2Proof.Machine
end

