-- ==== Sys2Proof/Machine/Operands.lean ====
section
/-! DEFINITION. The addressing-mode resolver (R112 to R128) and the frame every instruction of one
class shares (R111): advance `PC`, resolve, access, execute, advance the clock. A meaning names its
base cost, its operand and what it computes. `PC` is the opcode's address `pc0` when a meaning
starts, the instruction's own bytes having been fetched (log 12). -/

namespace Sys2Proof.Machine

/-- What the resolver hands on: effective address, penalty cycles, and the state after its pointer
reads (R111, R125). -/
structure Resolved where
  ea : Addr
  penalty : Nat
  state : State
  deriving DecidableEq, Repr

/-- The page-crossing penalty (R126). -/
def pagePenalty (base ea : Addr) : Nat := if hiByte ea = hiByte base then 0 else 1

/-- `base + index` modulo 65536, with its penalty (R120, R121, R124). -/
def indexed (base : Addr) (index : Byte) (s : State) : Resolved :=
  ⟨base + index.setWidth 16, pagePenalty base (base + index.setWidth 16), s⟩

/-- The resolver for the modes that yield an effective address (R115 to R117, R119 to R122, R124). -/
def resolve (o : MemOperand) (s : State) : Resolved :=
  match o with
  | .zp b1 => ⟨zeroPage b1, 0, s⟩
  | .zpx b1 => ⟨zeroPage (b1 + s.x), 0, s⟩
  | .zpy b1 => ⟨zeroPage (b1 + s.y), 0, s⟩
  | .abs w => ⟨w, 0, s⟩
  | .absx w => indexed w s.x s
  | .absy w => indexed w s.y s
  | .indx b1 => ⟨(s.read16Zp (b1 + s.x)).1, 0, (s.read16Zp (b1 + s.x)).2⟩
  | .indy b1 => indexed (s.read16Zp b1).1 s.y (s.read16Zp b1).2

/-- The target of relative mode: the displacement from the address `next` following the instruction
(R118). -/
def relTarget (next : Addr) (disp : Int) : Addr := next + BitVec.ofInt 16 disp

/-- Implicit mode (R112): one byte, no data access but what `f` makes. -/
def runImplied (base : Nat) (f : State → State) (s : State) : Answer :=
  .next ((f (s.advance 1)).tick base)

/-- Accumulator mode (R113): `f` maps the accumulator and `P` to the result and the new `P`. -/
def runAccumulator (base : Nat) (f : Byte → Byte → Byte × Byte) (s : State) : Answer :=
  .next (((s.advance 1).withA (f s.a s.p)).tick base)

/-- Immediate mode (R114): the operand byte is `M`. -/
def runImmediate (base : Nat) (m : Byte) (f : Byte → State → State) (s : State) : Answer :=
  .next ((f m (s.advance 2)).tick base)

/-- Read class (R125): the resolver reads `M` at `ea`. -/
def runRead (base : Nat) (o : MemOperand) (f : Byte → State → State) (s : State) : Answer :=
  let r := resolve o (s.advance (1 + o.mode.operandBytes))
  let d := r.state.busRead r.ea
  .next ((f d.1 d.2).tick (base + r.penalty))

/-- Write class (R125): the register `reg` is stored at `ea`, which is not read. -/
def runStore (base : Nat) (o : MemOperand) (reg : State → Byte) (s : State) : Answer :=
  let r := resolve o (s.advance (1 + o.mode.operandBytes))
  .next ((r.state.busWrite r.ea (reg s)).tick (base + r.penalty))

/-- Modify class (R170): one read and then one write of `ea`; `f` maps the byte read and `P` to the
byte written and the new `P`. -/
def runModify (base : Nat) (o : MemOperand) (f : Byte → Byte → Byte × Byte) (s : State) : Answer :=
  let r := resolve o (s.advance (1 + o.mode.operandBytes))
  let d := r.state.busRead r.ea
  let result := f d.1 d.2.p
  .next (((d.2.busWrite r.ea result.1).setP result.2).tick (base + r.penalty))

/-- A conditional branch (R185): two cycles, one more when taken, one more when the target lies in
another page than the next instruction. -/
def runBranch (cond : Byte → Bool) (disp : Int) (s : State) : Answer :=
  let s1 := s.advance 2
  let ea := relTarget s1.pc disp
  if cond s.p then .next ((s1.setPc ea).tick (2 + (1 + pagePenalty s1.pc ea)))
  else .next (s1.tick 2)

end Sys2Proof.Machine
end

