-- ==== Sys2Proof/Machine/Arith.lean ====
section
/-! DEFINITION. Add and subtract with carry: ADC, SBC (R159, R161, R162). -/

namespace Sys2Proof.Machine

/-- `A <- A + M + C` with its four flags (R161). -/
def addToA (m : Byte) (s : State) : State := s.withA (adc s.a m s.p)
/-- `A <- A - M - (1 - C)` with its four flags (R162). -/
def subFromA (m : Byte) (s : State) : State := s.withA (sbc s.a m s.p)

/-- `ADC`, 69, immediate (R161, R114). -/
def execAdcImm (b1 : Byte) (s : State) : Answer :=
  runImmediate 2 b1 addToA s

/-- `ADC`, 65, zero-page (R161, R115). -/
def execAdcZp (b1 : Byte) (s : State) : Answer :=
  runRead 3 (.zp b1) addToA s

/-- `ADC`, 75, zero-page-X (R161, R116). -/
def execAdcZpX (b1 : Byte) (s : State) : Answer :=
  runRead 4 (.zpx b1) addToA s

/-- `ADC`, 6D, absolute (R161, R119). -/
def execAdcAbs (w : Addr) (s : State) : Answer :=
  runRead 4 (.abs w) addToA s

/-- `ADC`, 7D, absolute-X (R161, R120). -/
def execAdcAbsX (w : Addr) (s : State) : Answer :=
  runRead 4 (.absx w) addToA s

/-- `ADC`, 79, absolute-Y (R161, R121). -/
def execAdcAbsY (w : Addr) (s : State) : Answer :=
  runRead 4 (.absy w) addToA s

/-- `ADC`, 61, indexed-indirect (R161, R122). -/
def execAdcIndX (b1 : Byte) (s : State) : Answer :=
  runRead 6 (.indx b1) addToA s

/-- `ADC`, 71, indirect-indexed (R161, R124). -/
def execAdcIndY (b1 : Byte) (s : State) : Answer :=
  runRead 5 (.indy b1) addToA s

/-- `SBC`, E9, immediate (R162, R114). -/
def execSbcImm (b1 : Byte) (s : State) : Answer :=
  runImmediate 2 b1 subFromA s

/-- `SBC`, E5, zero-page (R162, R115). -/
def execSbcZp (b1 : Byte) (s : State) : Answer :=
  runRead 3 (.zp b1) subFromA s

/-- `SBC`, F5, zero-page-X (R162, R116). -/
def execSbcZpX (b1 : Byte) (s : State) : Answer :=
  runRead 4 (.zpx b1) subFromA s

/-- `SBC`, ED, absolute (R162, R119). -/
def execSbcAbs (w : Addr) (s : State) : Answer :=
  runRead 4 (.abs w) subFromA s

/-- `SBC`, FD, absolute-X (R162, R120). -/
def execSbcAbsX (w : Addr) (s : State) : Answer :=
  runRead 4 (.absx w) subFromA s

/-- `SBC`, F9, absolute-Y (R162, R121). -/
def execSbcAbsY (w : Addr) (s : State) : Answer :=
  runRead 4 (.absy w) subFromA s

/-- `SBC`, E1, indexed-indirect (R162, R122). -/
def execSbcIndX (b1 : Byte) (s : State) : Answer :=
  runRead 6 (.indx b1) subFromA s

/-- `SBC`, F1, indirect-indexed (R162, R124). -/
def execSbcIndY (b1 : Byte) (s : State) : Answer :=
  runRead 5 (.indy b1) subFromA s

end Sys2Proof.Machine
end

