-- ==== Sys2Proof/Machine/Branch.lean ====
section
/-! DEFINITION. Conditional branches (R185 to R193). -/

namespace Sys2Proof.Machine

/-- `BCC`, 90, relative (R186, R118). -/
def execBcc (disp : Int) (s : State) : Answer :=
  runBranch (fun p => !flag p .c) disp s

/-- `BCS`, B0, relative (R187, R118). -/
def execBcs (disp : Int) (s : State) : Answer :=
  runBranch (fun p => flag p .c) disp s

/-- `BEQ`, F0, relative (R188, R118). -/
def execBeq (disp : Int) (s : State) : Answer :=
  runBranch (fun p => flag p .z) disp s

/-- `BNE`, D0, relative (R189, R118). -/
def execBne (disp : Int) (s : State) : Answer :=
  runBranch (fun p => !flag p .z) disp s

/-- `BMI`, 30, relative (R190, R118). -/
def execBmi (disp : Int) (s : State) : Answer :=
  runBranch (fun p => flag p .n) disp s

/-- `BPL`, 10, relative (R191, R118). -/
def execBpl (disp : Int) (s : State) : Answer :=
  runBranch (fun p => !flag p .n) disp s

/-- `BVC`, 50, relative (R192, R118). -/
def execBvc (disp : Int) (s : State) : Answer :=
  runBranch (fun p => !flag p .v) disp s

/-- `BVS`, 70, relative (R193, R118). -/
def execBvs (disp : Int) (s : State) : Answer :=
  runBranch (fun p => flag p .v) disp s

end Sys2Proof.Machine
end

