-- ==== Sys2Proof/Machine/Compare.lean ====
section
/-! DEFINITION. Compares and bit test: CMP, CPX, CPY, BIT (R166 to R169). No register but `P` changes. -/

namespace Sys2Proof.Machine

/-- Flags of `A - M` (R166). -/
def compareA (m : Byte) (s : State) : State := s.setP (compareFlags s.a m s.p)
/-- Flags of `X - M` (R167). -/
def compareX (m : Byte) (s : State) : State := s.setP (compareFlags s.x m s.p)
/-- Flags of `Y - M` (R168). -/
def compareY (m : Byte) (s : State) : State := s.setP (compareFlags s.y m s.p)
/-- Flags of BIT (R169). -/
def testBits (m : Byte) (s : State) : State := s.setP (bitTest s.a m s.p)

/-- `CMP`, C9, immediate (R166, R114). -/
def execCmpImm (b1 : Byte) (s : State) : Answer :=
  runImmediate 2 b1 compareA s

/-- `CMP`, C5, zero-page (R166, R115). -/
def execCmpZp (b1 : Byte) (s : State) : Answer :=
  runRead 3 (.zp b1) compareA s

/-- `CMP`, D5, zero-page-X (R166, R116). -/
def execCmpZpX (b1 : Byte) (s : State) : Answer :=
  runRead 4 (.zpx b1) compareA s

/-- `CMP`, CD, absolute (R166, R119). -/
def execCmpAbs (w : Addr) (s : State) : Answer :=
  runRead 4 (.abs w) compareA s

/-- `CMP`, DD, absolute-X (R166, R120). -/
def execCmpAbsX (w : Addr) (s : State) : Answer :=
  runRead 4 (.absx w) compareA s

/-- `CMP`, D9, absolute-Y (R166, R121). -/
def execCmpAbsY (w : Addr) (s : State) : Answer :=
  runRead 4 (.absy w) compareA s

/-- `CMP`, C1, indexed-indirect (R166, R122). -/
def execCmpIndX (b1 : Byte) (s : State) : Answer :=
  runRead 6 (.indx b1) compareA s

/-- `CMP`, D1, indirect-indexed (R166, R124). -/
def execCmpIndY (b1 : Byte) (s : State) : Answer :=
  runRead 5 (.indy b1) compareA s

/-- `CPX`, E0, immediate (R167, R114). -/
def execCpxImm (b1 : Byte) (s : State) : Answer :=
  runImmediate 2 b1 compareX s

/-- `CPX`, E4, zero-page (R167, R115). -/
def execCpxZp (b1 : Byte) (s : State) : Answer :=
  runRead 3 (.zp b1) compareX s

/-- `CPX`, EC, absolute (R167, R119). -/
def execCpxAbs (w : Addr) (s : State) : Answer :=
  runRead 4 (.abs w) compareX s

/-- `CPY`, C0, immediate (R168, R114). -/
def execCpyImm (b1 : Byte) (s : State) : Answer :=
  runImmediate 2 b1 compareY s

/-- `CPY`, C4, zero-page (R168, R115). -/
def execCpyZp (b1 : Byte) (s : State) : Answer :=
  runRead 3 (.zp b1) compareY s

/-- `CPY`, CC, absolute (R168, R119). -/
def execCpyAbs (w : Addr) (s : State) : Answer :=
  runRead 4 (.abs w) compareY s

/-- `BIT`, 24, zero-page (R169, R115). -/
def execBitZp (b1 : Byte) (s : State) : Answer :=
  runRead 3 (.zp b1) testBits s

/-- `BIT`, 2C, absolute (R169, R119). -/
def execBitAbs (w : Addr) (s : State) : Answer :=
  runRead 4 (.abs w) testBits s

end Sys2Proof.Machine
end

