-- ==== Sys2Proof/Machine/FlagOps.lean ====
section
/-! DEFINITION. Flag instructions: CLC, SEC, CLI, SEI, CLV, CLD, SED (R205 to R211). -/

namespace Sys2Proof.Machine

/-- Write one bit of `P` (R205 to R211). -/
def writeFlag (f : Flag) (value : Bool) (s : State) : State := s.setP (setFlag s.p f value)

/-- `CLC`, 18, implicit (R205). -/
def execClc (s : State) : Answer :=
  runImplied 2 (writeFlag .c false) s

/-- `SEC`, 38, implicit (R206). -/
def execSec (s : State) : Answer :=
  runImplied 2 (writeFlag .c true) s

/-- `CLI`, 58, implicit (R207). -/
def execCli (s : State) : Answer :=
  runImplied 2 (writeFlag .i false) s

/-- `SEI`, 78, implicit (R208). -/
def execSei (s : State) : Answer :=
  runImplied 2 (writeFlag .i true) s

/-- `CLV`, B8, implicit (R209). -/
def execClv (s : State) : Answer :=
  runImplied 2 (writeFlag .v false) s

/-- `CLD`, D8, implicit (R210). -/
def execCld (s : State) : Answer :=
  runImplied 2 (writeFlag .d false) s

/-- `SED`, F8, implicit (R211). -/
def execSed (s : State) : Answer :=
  runImplied 2 (writeFlag .d true) s

end Sys2Proof.Machine
end

