-- ==== Sys2Proof/Machine/IncDec.lean ====
section
/-! DEFINITION. Increments and decrements: INC, DEC, INX, INY, DEX, DEY (R171 to R176). -/

namespace Sys2Proof.Machine

/-- `INC`, E6, zero-page (R171, R115). -/
def execIncZp (b1 : Byte) (s : State) : Answer :=
  runModify 5 (.zp b1) incByte s

/-- `INC`, F6, zero-page-X (R171, R116). -/
def execIncZpX (b1 : Byte) (s : State) : Answer :=
  runModify 6 (.zpx b1) incByte s

/-- `INC`, EE, absolute (R171, R119). -/
def execIncAbs (w : Addr) (s : State) : Answer :=
  runModify 6 (.abs w) incByte s

/-- `INC`, FE, absolute-X (R171, R120). -/
def execIncAbsX (w : Addr) (s : State) : Answer :=
  runModify 7 (.absx w) incByte s

/-- `DEC`, C6, zero-page (R172, R115). -/
def execDecZp (b1 : Byte) (s : State) : Answer :=
  runModify 5 (.zp b1) decByte s

/-- `DEC`, D6, zero-page-X (R172, R116). -/
def execDecZpX (b1 : Byte) (s : State) : Answer :=
  runModify 6 (.zpx b1) decByte s

/-- `DEC`, CE, absolute (R172, R119). -/
def execDecAbs (w : Addr) (s : State) : Answer :=
  runModify 6 (.abs w) decByte s

/-- `DEC`, DE, absolute-X (R172, R120). -/
def execDecAbsX (w : Addr) (s : State) : Answer :=
  runModify 7 (.absx w) decByte s

/-- `INX`, E8, implicit (R173). -/
def execInx (s : State) : Answer :=
  runImplied 2 (fun t => t.withX (incByte t.x t.p)) s

/-- `INY`, C8, implicit (R174). -/
def execIny (s : State) : Answer :=
  runImplied 2 (fun t => t.withY (incByte t.y t.p)) s

/-- `DEX`, CA, implicit (R175). -/
def execDex (s : State) : Answer :=
  runImplied 2 (fun t => t.withX (decByte t.x t.p)) s

/-- `DEY`, 88, implicit (R176). -/
def execDey (s : State) : Answer :=
  runImplied 2 (fun t => t.withY (decByte t.y t.p)) s

end Sys2Proof.Machine
end

