-- ==== Sys2Proof/Machine/Jump.lean ====
section
/-! DEFINITION. Jumps, subroutine call and return: JMP, JSR, RTS (R194 to R196). -/

namespace Sys2Proof.Machine

/-- `JMP`, 4C, absolute (R194, R119). -/
def execJmpAbs (w : Addr) (s : State) : Answer :=
  .next (((s.advance 3).setPc w).tick 3)

/-- `JMP`, 6C, indirect (R194, R123). -/
def execJmpInd (w : Addr) (s : State) : Answer :=
  let t := (s.advance 3).read16Ind w
  .next ((t.2.setPc t.1).tick 5)

/-- `JSR`, 20, absolute (R195, R119). -/
def execJsr (w : Addr) (s : State) : Answer :=
  .next ((((s.advance 3).pushWord (s.pc + 2)).setPc w).tick 6)

/-- `RTS`, 60, implicit (R196). -/
def execRts (s : State) : Answer :=
  runImplied 6 (fun t => t.pullWord.2.setPc (t.pullWord.1 + 1)) s

end Sys2Proof.Machine
end

