-- ==== Sys2Proof/Machine/Load.lean ====
section
/-! DEFINITION. Loads: LDA, LDX, LDY (R141 to R143). -/

namespace Sys2Proof.Machine

/-- `A <- M; SetNZ(M)` (R141). -/
def loadA (m : Byte) (s : State) : State := s.withA (passNZ m s.p)
/-- `X <- M; SetNZ(M)` (R142). -/
def loadX (m : Byte) (s : State) : State := s.withX (passNZ m s.p)
/-- `Y <- M; SetNZ(M)` (R143). -/
def loadY (m : Byte) (s : State) : State := s.withY (passNZ m s.p)

/-- `LDA`, A9, immediate (R141, R114). -/
def execLdaImm (b1 : Byte) (s : State) : Answer :=
  runImmediate 2 b1 loadA s

/-- `LDA`, A5, zero-page (R141, R115). -/
def execLdaZp (b1 : Byte) (s : State) : Answer :=
  runRead 3 (.zp b1) loadA s

/-- `LDA`, B5, zero-page-X (R141, R116). -/
def execLdaZpX (b1 : Byte) (s : State) : Answer :=
  runRead 4 (.zpx b1) loadA s

/-- `LDA`, AD, absolute (R141, R119). -/
def execLdaAbs (w : Addr) (s : State) : Answer :=
  runRead 4 (.abs w) loadA s

/-- `LDA`, BD, absolute-X (R141, R120). -/
def execLdaAbsX (w : Addr) (s : State) : Answer :=
  runRead 4 (.absx w) loadA s

/-- `LDA`, B9, absolute-Y (R141, R121). -/
def execLdaAbsY (w : Addr) (s : State) : Answer :=
  runRead 4 (.absy w) loadA s

/-- `LDA`, A1, indexed-indirect (R141, R122). -/
def execLdaIndX (b1 : Byte) (s : State) : Answer :=
  runRead 6 (.indx b1) loadA s

/-- `LDA`, B1, indirect-indexed (R141, R124). -/
def execLdaIndY (b1 : Byte) (s : State) : Answer :=
  runRead 5 (.indy b1) loadA s

/-- `LDX`, A2, immediate (R142, R114). -/
def execLdxImm (b1 : Byte) (s : State) : Answer :=
  runImmediate 2 b1 loadX s

/-- `LDX`, A6, zero-page (R142, R115). -/
def execLdxZp (b1 : Byte) (s : State) : Answer :=
  runRead 3 (.zp b1) loadX s

/-- `LDX`, B6, zero-page-Y (R142, R117). -/
def execLdxZpY (b1 : Byte) (s : State) : Answer :=
  runRead 4 (.zpy b1) loadX s

/-- `LDX`, AE, absolute (R142, R119). -/
def execLdxAbs (w : Addr) (s : State) : Answer :=
  runRead 4 (.abs w) loadX s

/-- `LDX`, BE, absolute-Y (R142, R121). -/
def execLdxAbsY (w : Addr) (s : State) : Answer :=
  runRead 4 (.absy w) loadX s

/-- `LDY`, A0, immediate (R143, R114). -/
def execLdyImm (b1 : Byte) (s : State) : Answer :=
  runImmediate 2 b1 loadY s

/-- `LDY`, A4, zero-page (R143, R115). -/
def execLdyZp (b1 : Byte) (s : State) : Answer :=
  runRead 3 (.zp b1) loadY s

/-- `LDY`, B4, zero-page-X (R143, R116). -/
def execLdyZpX (b1 : Byte) (s : State) : Answer :=
  runRead 4 (.zpx b1) loadY s

/-- `LDY`, AC, absolute (R143, R119). -/
def execLdyAbs (w : Addr) (s : State) : Answer :=
  runRead 4 (.abs w) loadY s

/-- `LDY`, BC, absolute-X (R143, R120). -/
def execLdyAbsX (w : Addr) (s : State) : Answer :=
  runRead 4 (.absx w) loadY s

end Sys2Proof.Machine
end

