-- ==== Sys2Proof/Machine/Logic.lean ====
section
/-! DEFINITION. Bitwise logic: AND, ORA, EOR (R163 to R165). -/

namespace Sys2Proof.Machine

/-- `A <- A & M; SetNZ(A)` (R163). -/
def andToA (m : Byte) (s : State) : State := s.withA (passNZ (s.a &&& m) s.p)
/-- `A <- A | M; SetNZ(A)` (R164). -/
def orToA (m : Byte) (s : State) : State := s.withA (passNZ (s.a ||| m) s.p)
/-- `A <- A ^ M; SetNZ(A)` (R165). -/
def xorToA (m : Byte) (s : State) : State := s.withA (passNZ (s.a ^^^ m) s.p)

/-- `AND`, 29, immediate (R163, R114). -/
def execAndImm (b1 : Byte) (s : State) : Answer :=
  runImmediate 2 b1 andToA s

/-- `AND`, 25, zero-page (R163, R115). -/
def execAndZp (b1 : Byte) (s : State) : Answer :=
  runRead 3 (.zp b1) andToA s

/-- `AND`, 35, zero-page-X (R163, R116). -/
def execAndZpX (b1 : Byte) (s : State) : Answer :=
  runRead 4 (.zpx b1) andToA s

/-- `AND`, 2D, absolute (R163, R119). -/
def execAndAbs (w : Addr) (s : State) : Answer :=
  runRead 4 (.abs w) andToA s

/-- `AND`, 3D, absolute-X (R163, R120). -/
def execAndAbsX (w : Addr) (s : State) : Answer :=
  runRead 4 (.absx w) andToA s

/-- `AND`, 39, absolute-Y (R163, R121). -/
def execAndAbsY (w : Addr) (s : State) : Answer :=
  runRead 4 (.absy w) andToA s

/-- `AND`, 21, indexed-indirect (R163, R122). -/
def execAndIndX (b1 : Byte) (s : State) : Answer :=
  runRead 6 (.indx b1) andToA s

/-- `AND`, 31, indirect-indexed (R163, R124). -/
def execAndIndY (b1 : Byte) (s : State) : Answer :=
  runRead 5 (.indy b1) andToA s

/-- `ORA`, 09, immediate (R164, R114). -/
def execOraImm (b1 : Byte) (s : State) : Answer :=
  runImmediate 2 b1 orToA s

/-- `ORA`, 05, zero-page (R164, R115). -/
def execOraZp (b1 : Byte) (s : State) : Answer :=
  runRead 3 (.zp b1) orToA s

/-- `ORA`, 15, zero-page-X (R164, R116). -/
def execOraZpX (b1 : Byte) (s : State) : Answer :=
  runRead 4 (.zpx b1) orToA s

/-- `ORA`, 0D, absolute (R164, R119). -/
def execOraAbs (w : Addr) (s : State) : Answer :=
  runRead 4 (.abs w) orToA s

/-- `ORA`, 1D, absolute-X (R164, R120). -/
def execOraAbsX (w : Addr) (s : State) : Answer :=
  runRead 4 (.absx w) orToA s

/-- `ORA`, 19, absolute-Y (R164, R121). -/
def execOraAbsY (w : Addr) (s : State) : Answer :=
  runRead 4 (.absy w) orToA s

/-- `ORA`, 01, indexed-indirect (R164, R122). -/
def execOraIndX (b1 : Byte) (s : State) : Answer :=
  runRead 6 (.indx b1) orToA s

/-- `ORA`, 11, indirect-indexed (R164, R124). -/
def execOraIndY (b1 : Byte) (s : State) : Answer :=
  runRead 5 (.indy b1) orToA s

/-- `EOR`, 49, immediate (R165, R114). -/
def execEorImm (b1 : Byte) (s : State) : Answer :=
  runImmediate 2 b1 xorToA s

/-- `EOR`, 45, zero-page (R165, R115). -/
def execEorZp (b1 : Byte) (s : State) : Answer :=
  runRead 3 (.zp b1) xorToA s

/-- `EOR`, 55, zero-page-X (R165, R116). -/
def execEorZpX (b1 : Byte) (s : State) : Answer :=
  runRead 4 (.zpx b1) xorToA s

/-- `EOR`, 4D, absolute (R165, R119). -/
def execEorAbs (w : Addr) (s : State) : Answer :=
  runRead 4 (.abs w) xorToA s

/-- `EOR`, 5D, absolute-X (R165, R120). -/
def execEorAbsX (w : Addr) (s : State) : Answer :=
  runRead 4 (.absx w) xorToA s

/-- `EOR`, 59, absolute-Y (R165, R121). -/
def execEorAbsY (w : Addr) (s : State) : Answer :=
  runRead 4 (.absy w) xorToA s

/-- `EOR`, 41, indexed-indirect (R165, R122). -/
def execEorIndX (b1 : Byte) (s : State) : Answer :=
  runRead 6 (.indx b1) xorToA s

/-- `EOR`, 51, indirect-indexed (R165, R124). -/
def execEorIndY (b1 : Byte) (s : State) : Answer :=
  runRead 5 (.indy b1) xorToA s

end Sys2Proof.Machine
end

