-- ==== Sys2Proof/Machine/Shift.lean ====
section
/-! DEFINITION. Shifts and rotates: ASL, LSR, ROL, ROR (R177 to R180). -/

namespace Sys2Proof.Machine

/-- `ASL`, 0A, accumulator (R177, R113). -/
def execAslAcc (s : State) : Answer :=
  runAccumulator 2 aslByte s

/-- `ASL`, 06, zero-page (R177, R115). -/
def execAslZp (b1 : Byte) (s : State) : Answer :=
  runModify 5 (.zp b1) aslByte s

/-- `ASL`, 16, zero-page-X (R177, R116). -/
def execAslZpX (b1 : Byte) (s : State) : Answer :=
  runModify 6 (.zpx b1) aslByte s

/-- `ASL`, 0E, absolute (R177, R119). -/
def execAslAbs (w : Addr) (s : State) : Answer :=
  runModify 6 (.abs w) aslByte s

/-- `ASL`, 1E, absolute-X (R177, R120). -/
def execAslAbsX (w : Addr) (s : State) : Answer :=
  runModify 7 (.absx w) aslByte s

/-- `LSR`, 4A, accumulator (R178, R113). -/
def execLsrAcc (s : State) : Answer :=
  runAccumulator 2 lsrByte s

/-- `LSR`, 46, zero-page (R178, R115). -/
def execLsrZp (b1 : Byte) (s : State) : Answer :=
  runModify 5 (.zp b1) lsrByte s

/-- `LSR`, 56, zero-page-X (R178, R116). -/
def execLsrZpX (b1 : Byte) (s : State) : Answer :=
  runModify 6 (.zpx b1) lsrByte s

/-- `LSR`, 4E, absolute (R178, R119). -/
def execLsrAbs (w : Addr) (s : State) : Answer :=
  runModify 6 (.abs w) lsrByte s

/-- `LSR`, 5E, absolute-X (R178, R120). -/
def execLsrAbsX (w : Addr) (s : State) : Answer :=
  runModify 7 (.absx w) lsrByte s

/-- `ROL`, 2A, accumulator (R179, R113). -/
def execRolAcc (s : State) : Answer :=
  runAccumulator 2 rolByte s

/-- `ROL`, 26, zero-page (R179, R115). -/
def execRolZp (b1 : Byte) (s : State) : Answer :=
  runModify 5 (.zp b1) rolByte s

/-- `ROL`, 36, zero-page-X (R179, R116). -/
def execRolZpX (b1 : Byte) (s : State) : Answer :=
  runModify 6 (.zpx b1) rolByte s

/-- `ROL`, 2E, absolute (R179, R119). -/
def execRolAbs (w : Addr) (s : State) : Answer :=
  runModify 6 (.abs w) rolByte s

/-- `ROL`, 3E, absolute-X (R179, R120). -/
def execRolAbsX (w : Addr) (s : State) : Answer :=
  runModify 7 (.absx w) rolByte s

/-- `ROR`, 6A, accumulator (R180, R113). -/
def execRorAcc (s : State) : Answer :=
  runAccumulator 2 rorByte s

/-- `ROR`, 66, zero-page (R180, R115). -/
def execRorZp (b1 : Byte) (s : State) : Answer :=
  runModify 5 (.zp b1) rorByte s

/-- `ROR`, 76, zero-page-X (R180, R116). -/
def execRorZpX (b1 : Byte) (s : State) : Answer :=
  runModify 6 (.zpx b1) rorByte s

/-- `ROR`, 6E, absolute (R180, R119). -/
def execRorAbs (w : Addr) (s : State) : Answer :=
  runModify 6 (.abs w) rorByte s

/-- `ROR`, 7E, absolute-X (R180, R120). -/
def execRorAbsX (w : Addr) (s : State) : Answer :=
  runModify 7 (.absx w) rorByte s

end Sys2Proof.Machine
end

