-- ==== Sys2Proof/Machine/Stack.lean ====
section
/-! DEFINITION. Stack instructions: PHA, PLA, PHP, PLP (R201 to R204). -/

namespace Sys2Proof.Machine

/-- `PHA`, 48, implicit (R201). -/
def execPha (s : State) : Answer :=
  runImplied 3 (fun t => t.push t.a) s

/-- `PLA`, 68, implicit (R202). -/
def execPla (s : State) : Answer :=
  runImplied 4 (fun t => t.pull.2.withA (passNZ t.pull.1 t.p)) s

/-- `PHP`, 08, implicit (R203). -/
def execPhp (s : State) : Answer :=
  runImplied 3 (fun t => t.push (pushedStatus t.p)) s

/-- `PLP`, 28, implicit (R204). -/
def execPlp (s : State) : Answer :=
  runImplied 4 (fun t => t.pull.2.setP (pulledStatus t.p t.pull.1)) s

end Sys2Proof.Machine
end

