-- ==== Sys2Proof/Machine/Store.lean ====
section
/-! DEFINITION. Stores: STA, STX, STY (R144 to R146). No flag changes. -/

namespace Sys2Proof.Machine

/-- `STA`, 85, zero-page (R144, R115). -/
def execStaZp (b1 : Byte) (s : State) : Answer :=
  runStore 3 (.zp b1) State.a s

/-- `STA`, 95, zero-page-X (R144, R116). -/
def execStaZpX (b1 : Byte) (s : State) : Answer :=
  runStore 4 (.zpx b1) State.a s

/-- `STA`, 8D, absolute (R144, R119). -/
def execStaAbs (w : Addr) (s : State) : Answer :=
  runStore 4 (.abs w) State.a s

/-- `STA`, 9D, absolute-X (R144, R120). -/
def execStaAbsX (w : Addr) (s : State) : Answer :=
  runStore 5 (.absx w) State.a s

/-- `STA`, 99, absolute-Y (R144, R121). -/
def execStaAbsY (w : Addr) (s : State) : Answer :=
  runStore 5 (.absy w) State.a s

/-- `STA`, 81, indexed-indirect (R144, R122). -/
def execStaIndX (b1 : Byte) (s : State) : Answer :=
  runStore 6 (.indx b1) State.a s

/-- `STA`, 91, indirect-indexed (R144, R124). -/
def execStaIndY (b1 : Byte) (s : State) : Answer :=
  runStore 6 (.indy b1) State.a s

/-- `STX`, 86, zero-page (R145, R115). -/
def execStxZp (b1 : Byte) (s : State) : Answer :=
  runStore 3 (.zp b1) State.x s

/-- `STX`, 96, zero-page-Y (R145, R117). -/
def execStxZpY (b1 : Byte) (s : State) : Answer :=
  runStore 4 (.zpy b1) State.x s

/-- `STX`, 8E, absolute (R145, R119). -/
def execStxAbs (w : Addr) (s : State) : Answer :=
  runStore 4 (.abs w) State.x s

/-- `STY`, 84, zero-page (R146, R115). -/
def execStyZp (b1 : Byte) (s : State) : Answer :=
  runStore 3 (.zp b1) State.y s

/-- `STY`, 94, zero-page-X (R146, R116). -/
def execStyZpX (b1 : Byte) (s : State) : Answer :=
  runStore 4 (.zpx b1) State.y s

/-- `STY`, 8C, absolute (R146, R119). -/
def execStyAbs (w : Addr) (s : State) : Answer :=
  runStore 4 (.abs w) State.y s

end Sys2Proof.Machine
end

