-- ==== Sys2Proof/Machine/System.lean ====
section
/-! DEFINITION. The software interrupt and its return, and NOP: BRK, RTI, NOP (R212 to R214). -/

namespace Sys2Proof.Machine

/-- `BRK`, 00, implicit (R212). -/
def execBrk (s : State) : Answer :=
  runImplied 7 (fun t => t.takeTrap (s.pc + 2) brkVector) s

/-- `RTI`, 40, implicit (R213). -/
def execRti (s : State) : Answer :=
  runImplied 6 State.returnFromTrap s

/-- `NOP`, EA, implicit (R214). -/
def execNop (s : State) : Answer :=
  runImplied 2 (fun t => t) s

end Sys2Proof.Machine
end

