-- ==== Sys2Proof/Machine/Transfer.lean ====
section
/-! DEFINITION. Register transfers: TAX, TAY, TXA, TYA, TSX, TXS (R147 to R152). TXS alone sets no flag. -/

namespace Sys2Proof.Machine

/-- `TAX`, AA, implicit (R147). -/
def execTax (s : State) : Answer :=
  runImplied 2 (fun t => t.withX (passNZ t.a t.p)) s

/-- `TAY`, A8, implicit (R148). -/
def execTay (s : State) : Answer :=
  runImplied 2 (fun t => t.withY (passNZ t.a t.p)) s

/-- `TXA`, 8A, implicit (R149). -/
def execTxa (s : State) : Answer :=
  runImplied 2 (fun t => t.withA (passNZ t.x t.p)) s

/-- `TYA`, 98, implicit (R150). -/
def execTya (s : State) : Answer :=
  runImplied 2 (fun t => t.withA (passNZ t.y t.p)) s

/-- `TSX`, BA, implicit (R151). -/
def execTsx (s : State) : Answer :=
  runImplied 2 (fun t => t.withX (passNZ t.sp t.p)) s

/-- `TXS`, 9A, implicit (R152). -/
def execTxs (s : State) : Answer :=
  runImplied 2 (fun t => t.setSp t.x) s

end Sys2Proof.Machine
end

