-- ==== Sys2Proof/Machine/Fetch.lean ====
section
/-! DEFINITION. Fetching an instruction's bytes over the bus (R110, R111, R129 steps 1 and 2), and
placing an instruction from outside where the next fetch finds it (log 9). -/

namespace Sys2Proof.Machine

/-- Read `n` bytes from `a` on, addresses modulo 65536 (R26, R111). -/
def State.readBytes (s : State) : Nat → Addr → List Byte × State
  | 0, _ => ([], s)
  | n + 1, a =>
    let b := s.busRead a
    let r := b.2.readBytes n (a + 1)
    (b.1 :: r.1, r.2)

/-- Fetch the opcode at `PC` and as many operand bytes as it has; after an invalid opcode nothing
more is fetched (R98, R111). `PC` does not move. -/
def State.fetch (s : State) : List Byte × State :=
  let o := s.busRead s.pc
  match operandCount? o.1 with
  | none => ([o.1], o.2)
  | some n =>
    let r := o.2.readBytes n (s.pc + 1)
    (o.1 :: r.1, r.2)

/-- The step's end when the bytes fetched do not decode: the halt of R221, on the byte rejected. -/
def State.haltOn (s : State) (e : DecodeError) : State :=
  match e with
  | .invalidOpcode op => s.halt op
  | .truncated op => s.halt op
  | .noBytes => s.halt s.latch

/-- Whether storage lies behind an address (R51). -/
def State.isStorage (s : State) (a : Addr) : Bool := (s.peek a).isSome

/-- Put a byte behind an address from outside the machine: program ROM is loaded this way. -/
def State.poke (s : State) (a : Addr) (v : Byte) : State :=
  match translateAddr s.cfg a with
  | .cell .prg i => { s with cfg := { s.cfg with prg := Memory.putOver 0x00 s.cfg.prg i v } }
  | .cell b i => s.store b i v
  | .gfx _ => s
  | .openBus => s

/-- Put bytes behind successive addresses. -/
def State.pokeBytes (s : State) : List Byte → Addr → State
  | [], _ => s
  | v :: vs, a => (s.poke a v).pokeBytes vs (a + 1)

/-- Place the bytes of one instruction, at most three, where the next step fetches: at `PC` when
storage lies there, else at 0x8000 with `PC` moved there; a halt record is cleared, since a halted
core fetches nothing. -/
def State.placeInstruction (s : State) (bytes : List Byte) : State :=
  let s1 := { s with halted := none }
  if s.isStorage s.pc && s.isStorage (s.pc + 1) && s.isStorage (s.pc + 2) then
    s1.pokeBytes bytes s.pc
  else (s1.setPc 0x8000).pokeBytes bytes 0x8000

end Sys2Proof.Machine
end

