-- ==== Sys2Proof/Machine/Step.lean ====
section
/-! DEFINITION. One step (R110, R111): a halted core does nothing (R133); otherwise fetch, decode, and
execute, or halt on an invalid opcode (R221). -/

namespace Sys2Proof.Machine

/-- `Step()` (R111). A configuration the spec does not admit is refused (R57, U9, log 8). -/
def step (s : State) : Host.Outcome State Fault Refusal :=
  match s.cfg.valid with
  | false => .refused .invalidConfiguration
  | true =>
    match s.halted with
    | some _ => .next s
    | none =>
      let f := s.fetch
      match decode f.1 with
      | .decoded i _ => exec i f.2
      | .rejected e => .next (f.2.haltOn e)

/-- The state with the instruction whose bits are `w` placed where the next step fetches (log 9). -/
def State.withFetchWord (s : State) (nbits w : Nat) : State :=
  s.placeInstruction (tableBytes nbits w)

end Sys2Proof.Machine
end

