-- ==== Sys2Proof/Machine/Trace.lean ====
section
/-! DEFINITION. Assembler syntax and the optional trace line (R102, R103): a pure function of the
opcode's address and the instruction, with no effect on the state. Log 14. -/

namespace Sys2Proof.Machine

/-- A mnemonic as text (R102). -/
def mnemonicText : Mnemonic → String
  | .adc => "ADC" | .and => "AND" | .asl => "ASL" | .bcc => "BCC" | .bcs => "BCS" | .beq => "BEQ" | .bit => "BIT"
  | .bmi => "BMI" | .bne => "BNE" | .bpl => "BPL" | .brk => "BRK" | .bvc => "BVC" | .bvs => "BVS" | .clc => "CLC"
  | .cld => "CLD" | .cli => "CLI" | .clv => "CLV" | .cmp => "CMP" | .cpx => "CPX" | .cpy => "CPY" | .dec => "DEC"
  | .dex => "DEX" | .dey => "DEY" | .eor => "EOR" | .inc => "INC" | .inx => "INX" | .iny => "INY" | .jmp => "JMP"
  | .jsr => "JSR" | .lda => "LDA" | .ldx => "LDX" | .ldy => "LDY" | .lsr => "LSR" | .nop => "NOP" | .ora => "ORA"
  | .pha => "PHA" | .php => "PHP" | .pla => "PLA" | .plp => "PLP" | .rol => "ROL" | .ror => "ROR" | .rti => "RTI"
  | .rts => "RTS" | .sbc => "SBC" | .sec => "SEC" | .sed => "SED" | .sei => "SEI" | .sta => "STA" | .stx => "STX"
  | .sty => "STY" | .tax => "TAX" | .tay => "TAY" | .tsx => "TSX" | .txa => "TXA" | .txs => "TXS" | .tya => "TYA"

/-- One upper-case hexadecimal digit. -/
def hexDigit (n : Nat) : Char :=
  if n < 10 then Char.ofNat (48 + n) else Char.ofNat (55 + n)

/-- Two hexadecimal digits of a byte. -/
def hexByte (v : Byte) : String :=
  String.ofList [hexDigit (v.toNat / 16), hexDigit (v.toNat % 16)]

/-- Four hexadecimal digits of a 16-bit value. -/
def hexWord (v : Addr) : String := hexByte (hiByte v) ++ hexByte (loByte v)

/-- Operand syntax of a memory operand (R102). -/
def memOperandText : MemOperand → String
  | .zp b1 => "$" ++ hexByte b1
  | .zpx b1 => "$" ++ hexByte b1 ++ ",X"
  | .zpy b1 => "$" ++ hexByte b1 ++ ",Y"
  | .abs w => "$" ++ hexWord w
  | .absx w => "$" ++ hexWord w ++ ",X"
  | .absy w => "$" ++ hexWord w ++ ",Y"
  | .indx b1 => "($" ++ hexByte b1 ++ ",X)"
  | .indy b1 => "($" ++ hexByte b1 ++ "),Y"

/-- A space and the operand, nothing in implicit mode (R102, R103). -/
def operandText : Operand → String
  | .impl => ""
  | .acc => " A"
  | .imm b1 => " #$" ++ hexByte b1
  | .mem m => " " ++ memOperandText m
  | .rel disp => " " ++ toString disp
  | .ind w => " ($" ++ hexWord w ++ ")"

/-- The trace line of an instruction whose opcode stands at `pc0` (R103). -/
def traceLine (pc0 : Addr) (i : Instr) : String :=
  hexWord pc0 ++ "\t" ++ mnemonicText i.mnemonic ++ operandText i.operand

end Sys2Proof.Machine
end

