-- ==== Sys2Proof/Machine/Run.lean ====
section
/-! DEFINITION. `Run(bound)`, the host's control input (R134), with its typed result (R222). -/

namespace Sys2Proof.Machine

/-- The result of `Run` (R222). -/
inductive RunResult where
  /-- `RanToBound`: the time bound was reached. -/
  | ranToBound
  /-- `HaltedInvalidOpcode(addr, byte)`: the core is halted. -/
  | haltedInvalidOpcode (f : Fault)
  deriving DecidableEq, Repr

/-- The result `Run` reports in a state where it stops (R134). -/
def State.runResult (s : State) : RunResult :=
  match s.halted with
  | none => .ranToBound
  | some h => .haltedInvalidOpcode (.invalidOpcode h.1 h.2)

/-- The loop of R134, at most `fuel` times: while the core is not halted and the bound is not
reached, step. -/
def runLoop (bound : Nat) : Nat → State → Host.Outcome (RunResult × State) Fault Refusal
  | 0, s => .next (s.runResult, s)
  | fuel + 1, s =>
    if s.halted = none ∧ s.cpuCycles < bound then
      match step s with
      | .next t => runLoop bound fuel t
      | .fault f => .fault f
      | .refused r => .refused r
    else .next (s.runResult, s)

/-- `Run(bound)`, `bound` an absolute value of `cpu_cycles` (R134). Every step that does not halt
advances the clock, so `bound - cpu_cycles` rounds are enough (log 13). -/
def run (bound : Nat) (s : State) : Host.Outcome (RunResult × State) Fault Refusal :=
  runLoop bound (bound - s.cpuCycles) s

end Sys2Proof.Machine
end

