-- ==== Sys2Proof/Safety.lean ====
section
/-! DEFINITION. What claims call a good state, the states a run can reach, and the steps of one `Run`. -/

namespace Sys2Proof.Machine

/-- Admissible parameters (R9) with program ROM and graphics banks in canonical form (log 4). -/
structure ConfigOk (cfg : Config) : Prop where
  valid : cfg.valid = true
  prg : Memory.wfOver 0x00 cfg.prgSize cfg.prg = true
  chr : Memory.wfOver 0x00 cfg.chrSize cfg.chr = true

/-- What holds between steps: the configuration is admissible, the memories are in canonical form,
bits 4 and 5 of `P` are 0 (R25), the co-processor's counter never runs ahead of the CPU's (R231) and
is the co-processor's own time (R33), and a halt record names `PC` and the byte on the bus, an invalid
opcode (R221). -/
structure Inv (s : State) : Prop where
  config : ConfigOk s.cfg
  wram : Memory.wf 2048 s.wram = true
  sram : Memory.wf s.cfg.sramSize s.sram = true
  status : s.p &&& 0x30 = 0
  clock : s.ppuCycles ≤ s.cpuCycles * s.cfg.ppuPerCpu
  time : ppuTime s.ppu = s.ppuCycles
  halt : ∀ addr op, s.halted = some (addr, op) →
    addr = s.pc ∧ op = s.latch ∧ opcodeRow? op = none

/-- The states some run reaches: power-on (R250) with any admissible configuration and any canonical
initial memories, then steps. -/
inductive Reachable : State → Prop where
  | powerOn (cfg : Config) (wram sram : Memory) (latch : Byte) (hc : ConfigOk cfg)
      (hw : Memory.wf 2048 wram = true) (hs : Memory.wf cfg.sramSize sram = true) :
      Reachable (State.powerOn cfg wram sram latch)
  | step (s t : State) (hs : Reachable s) (ht : step s = .next t) : Reachable t

/-- `t` comes from `s` by steps, each taken while the core is running and its clock below the bound, as
the loop of `Run` takes them (R134). -/
inductive RunsTo (bound : Nat) : State → State → Prop where
  | refl (s : State) : RunsTo bound s s
  | step (s u t : State) (running : s.halted = none) (below : s.cpuCycles < bound)
      (hs : Machine.step s = .next u) (rest : RunsTo bound u t) : RunsTo bound s t

end Sys2Proof.Machine
end

