-- ==== Sys2Proof/Certificates/Slice0/Obligations.lean ====
section
/-! DEFINITION. The statements for the provers. The vocabulary they share comes first, under
`Sys2Proof.Claims`; each obligation's docstring names the rules of the spec it formalises. Many of
those rules carry the spec's own origin marks (general knowledge, a decision D<n>): they are the
spec's rules all the same; where a clause rests on a choice of the MODEL, the docstring says so and
names the log entry. -/

namespace Sys2Proof.Claims
open Sys2Proof.Machine

/-- The rows of the instruction table for a mnemonic: opcode, mode, length, base cycles. The spec marks
the opcode bytes and cycle counts of its table (R95, R96, R262), and so those of every statement that
lists them, `[from general knowledge, not in source]`, its decisions D1 and D13. -/
def formsOf (m : Mnemonic) : List (Byte × Mode × Nat × Nat) :=
  (opcodeTable.filter fun r => r.mnemonic == m).map fun r =>
    (r.opcode, r.mode, 1 + r.mode.operandBytes, r.base)

/-- `Z` and `N` as `SetNZ(v)` leaves them (R11). -/
def NZ (p v : Byte) : Prop := flag p .z = decide (v = 0) ∧ flag p .n = v.getLsbD 7

/-- Every flag but those listed is as before. -/
def FlagsKeptBut (written : List Flag) (s t : State) : Prop :=
  ∀ f, f ∉ written → flag t.p f = flag s.p f

/-- `A`, `X`, `Y`, `SP` are as before. -/
def RegsKept (s t : State) : Prop := t.a = s.a ∧ t.x = s.x ∧ t.y = s.y ∧ t.sp = s.sp

/-- Every byte of memory reads as before. -/
def MemKept (s t : State) : Prop := ∀ a, t.peek a = s.peek a

/-- Byte `v` was stored at `ea`: the cell behind `ea`, if it is RAM, reads `v` through every address
that reaches it, and every other address reads as before. -/
def StoredAt (s t : State) (ea : Addr) (v : Byte) : Prop :=
  ∀ a, t.peek a =
    if translateAddr s.cfg a = translateAddr s.cfg ea ∧ (translateAddr s.cfg ea).isRam = true
    then some v else s.peek a

/-- The address of the instruction after `i`, modulo 65536. -/
def nextPc (i : Instr) (s : State) : Addr := BitVec.ofNat 16 (s.pc.toNat + i.length)

/-- Executing `i` in `s` answers the next state `t`, at `pc`, `cost` cycles later, with the bus latch
and the co-processor as in `u`, the halt record and the configuration as in `s`. -/
def Completes (i : Instr) (s u t : State) (cost : Nat) (pc : Addr) : Prop :=
  exec i s = .next t ∧ t.pc = pc ∧ t.cpuCycles = s.cpuCycles + cost ∧ t.latch = u.latch ∧
    t.ppu = u.ppu ∧ t.ppuCycles = u.ppuCycles ∧ t.halted = s.halted ∧ t.cfg = s.cfg

/-- A read-class operand access: the byte `M`, the penalty, the state after the bus reads. -/
structure Access where
  value : Byte
  penalty : Nat
  after : State

/-- The operand access of a read-class instruction (R114, R125). -/
def readOperand (o : Operand) (s : State) : Option Access :=
  match o with
  | .imm b1 => some ⟨b1, 0, s⟩
  | .mem m =>
    let r := resolve m s
    let d := r.state.busRead r.ea
    some ⟨d.1, r.penalty, d.2⟩
  | .impl => none
  | .acc => none
  | .rel _ => none
  | .ind _ => none

/-- A read-class instruction completes, having read its operand byte and stored nothing, with `post`
of the byte and the next state. -/
def ReadsThen (i : Instr) (s : State) (post : Byte → State → Prop) : Prop :=
  ∃ acc t, readOperand i.operand s = some acc ∧
    Completes i s acc.after t (i.base + acc.penalty) (nextPc i s) ∧ MemKept s t ∧
    post acc.value t

/-- A write-class instruction completes, having stored byte `v` at its effective address and changed
no register but `PC`. -/
def StoresRegister (i : Instr) (s : State) (v : Byte) : Prop :=
  ∃ m t, i.operand = .mem m ∧
    Completes i s ((resolve m s).state.busWrite (resolve m s).ea v) t
      (i.base + (resolve m s).penalty) (nextPc i s) ∧
    StoredAt s t (resolve m s).ea v ∧ RegsKept s t ∧ t.p = s.p

/-- A modify-class instruction on memory completes with one read and one write of its effective
address, changing no register but `PC` and `P`; `post` of the byte read, the byte written and the
next state. -/
def ModifiesThen (i : Instr) (s : State) (post : Byte → Byte → State → Prop) : Prop :=
  ∃ m v t, i.operand = .mem m ∧
    Completes i s
      (((resolve m s).state.busRead (resolve m s).ea).2.busWrite (resolve m s).ea v) t
      (i.base + (resolve m s).penalty) (nextPc i s) ∧
    StoredAt s t (resolve m s).ea v ∧ RegsKept s t ∧
    post ((resolve m s).state.busRead (resolve m s).ea).1 v t

/-- An instruction that makes no bus access of its own completes with `post` of the next state. -/
def CompletesQuietly (i : Instr) (s : State) (post : State → Prop) : Prop :=
  ∃ t, Completes i s s t i.base (nextPc i s) ∧ MemKept s t ∧ post t

/-- What the four shifts and rotates do to a byte `v` with carry `c`: the result `r` and the new
carry `c'` (R177 to R180). -/
def ShiftResult (m : Mnemonic) (v : Byte) (c : Bool) (r : Byte) (c' : Bool) : Prop :=
  (m = .asl → r.toNat = 2 * v.toNat % 256 ∧ c' = v.getLsbD 7) ∧
  (m = .lsr → r.toNat = v.toNat / 2 ∧ c' = v.getLsbD 0) ∧
  (m = .rol → r.toNat = (2 * v.toNat + c.toNat) % 256 ∧ c' = v.getLsbD 7) ∧
  (m = .ror → r.toNat = v.toNat / 2 + 128 * c.toNat ∧ c' = v.getLsbD 0)

/-- Whether an integer lies outside the signed range of a byte (R159). -/
def signedOverflow (x : Int) : Bool := decide (x < -128 ∨ 127 < x)

/-- The flags of a comparison of register `r` with byte `m` (R166 to R168). -/
def Compared (r m : Byte) (s t : State) : Prop :=
  flag t.p .c = decide (m.toNat ≤ r.toNat) ∧ flag t.p .z = decide (r = m) ∧
    flag t.p .n = decide (128 ≤ (r.toNat + 256 - m.toNat) % 256) ∧ FlagsKeptBut [.c, .z, .n] s t ∧
    RegsKept s t

/-- The eight branches with the flag they test and the value they branch on (R185). -/
def branches : List ((Int → Instr) × Flag × Bool) :=
  [(.bcc, .c, false), (.bcs, .c, true), (.beq, .z, true), (.bne, .z, false), (.bmi, .n, true),
    (.bpl, .n, false), (.bvc, .v, false), (.bvs, .v, true)]

/-- The seven flag instructions with the flag they write and its value (R205 to R211). -/
def flagWrites : List (Instr × Flag × Bool) :=
  [(.clc, .c, false), (.sec, .c, true), (.cli, .i, false), (.sei, .i, true), (.clv, .v, false),
    (.cld, .d, false), (.sed, .d, true)]

/-- The mnemonics whose result sets `Z` and `N`, or pulls them (R23). -/
def nzWriters : List Mnemonic :=
  [.lda, .ldx, .ldy, .tax, .tay, .txa, .tya, .tsx, .pla, .adc, .sbc, .and, .ora, .eor, .cmp, .cpx,
    .cpy, .inc, .dec, .inx, .iny, .dex, .dey, .asl, .lsr, .rol, .ror, .bit, .plp, .rti]

/-- The mnemonics that write a flag (R23). -/
def flagWriters : Flag → List Mnemonic
  | .c => [.adc, .sbc, .cmp, .cpx, .cpy, .asl, .lsr, .rol, .ror, .clc, .sec, .plp, .rti]
  | .z => nzWriters
  | .i => [.sei, .cli, .brk, .plp, .rti]
  | .d => [.sed, .cld, .plp, .rti]
  | .b => []
  | .u => []
  | .v => [.adc, .sbc, .bit, .clv, .plp, .rti]
  | .n => nzWriters

/-- The shifts and rotates (R177 to R180). -/
def shifts : List Mnemonic := [.asl, .lsr, .rol, .ror]

/-- The modify class (R12). -/
def modifyClass : List Mnemonic := [.asl, .lsr, .rol, .ror, .inc, .dec]

/-- The 105 unassigned opcodes, as R98 lists them. -/
def invalidOpcodes : List Byte :=
  [0x02, 0x03, 0x04, 0x07, 0x0B, 0x0C, 0x0F,
   0x12, 0x13, 0x14, 0x17, 0x1A, 0x1B, 0x1C, 0x1F] ++
  [0x22, 0x23, 0x27, 0x2B, 0x2F,
   0x32, 0x33, 0x34, 0x37, 0x3A, 0x3B, 0x3C, 0x3F] ++
  [0x42, 0x43, 0x44, 0x47, 0x4B, 0x4F,
   0x52, 0x53, 0x54, 0x57, 0x5A, 0x5B, 0x5C, 0x5F] ++
  [0x62, 0x63, 0x64, 0x67, 0x6B, 0x6F,
   0x72, 0x73, 0x74, 0x77, 0x7A, 0x7B, 0x7C, 0x7F] ++
  [0x80, 0x82, 0x83, 0x87, 0x89, 0x8B, 0x8F,
   0x92, 0x93, 0x97, 0x9B, 0x9C, 0x9E, 0x9F] ++
  [0xA3, 0xA7, 0xAB, 0xAF,
   0xB2, 0xB3, 0xB7, 0xBB, 0xBF] ++
  [0xC2, 0xC3, 0xC7, 0xCB, 0xCF,
   0xD2, 0xD3, 0xD4, 0xD7, 0xDA, 0xDB, 0xDC, 0xDF] ++
  [0xE2, 0xE3, 0xE7, 0xEB, 0xEF,
   0xF2, 0xF3, 0xF4, 0xF7, 0xFA, 0xFB, 0xFC, 0xFF]

end Sys2Proof.Claims

open Sys2Proof Sys2Proof.Machine Sys2Proof.Claims

/-! ## Encoding -/

/-- Decoding the encoding of a well-formed instruction, whatever bytes follow, gives it back with the
bytes that follow (R92, R93, R96, R100). The check on displacements is R93's range (log 10). -/
def Obligations.DecodeOfEncodeIsTheInstruction : Prop :=
  ∀ (i : Instr) (rest : List Byte), i.wellFormed = true →
    decode (encode i ++ rest) = .decoded i rest

/-- Whatever decodes is well formed, and the bytes consumed are exactly its encoding: no instruction
has two encodings and no operand bit is dropped (R92 to R94, R100). Every instruction's encoding starts
with its opcode, whose row of the table is its own: it has its mnemonic, its addressing mode and its base
cycles (R94, R96). With the rows that the statements below list by mnemonic (`formsOf`), this fixes the
opcode of each of the 151 forms. -/
def Obligations.DecodedBytesAreTheEncoding : Prop :=
  (∀ (bytes rest : List Byte) (i : Instr), decode bytes = .decoded i rest →
    i.wellFormed = true ∧ bytes = encode i ++ rest ∧ (encode i).length = i.length) ∧
  ∀ i : Instr, (encode i)[0]? = some i.opcode ∧
    ∃ r, opcodeRow? i.opcode = some r ∧ r.opcode = i.opcode ∧ r.mnemonic = i.mnemonic ∧
      r.mode = i.operand.mode ∧ r.base = i.base

/-- The opcodes that decode to nothing are the 105 bytes R98 lists. -/
def Obligations.UnassignedOpcodesAreTheListed105 : Prop :=
  invalidOpcodes.length = 105 ∧
    ∀ op : Byte, opcodeRow? op = none ↔ op ∈ invalidOpcodes

/-- The worked encodings of R102, written out: each decodes to the instruction it stands for. -/
def Obligations.WorkedEncodingsDecode : Prop :=
  decode [0x78] = .decoded .sei [] ∧ decode [0x0A] = .decoded .aslAcc [] ∧
  decode [0xA9, 0x10] = .decoded (.ldaImm 0x10) [] ∧
  decode [0xA5, 0x10] = .decoded (.ldaZp 0x10) [] ∧
  decode [0xB5, 0x10] = .decoded (.ldaZpX 0x10) [] ∧
  decode [0xB6, 0x10] = .decoded (.ldxZpY 0x10) [] ∧
  decode [0xD0, 0xFD] = .decoded (.bne (-3)) [] ∧
  decode [0xAD, 0x34, 0x12] = .decoded (.ldaAbs 0x1234) [] ∧
  decode [0xBD, 0x34, 0x12] = .decoded (.ldaAbsX 0x1234) [] ∧
  decode [0xB9, 0x34, 0x12] = .decoded (.ldaAbsY 0x1234) [] ∧
  decode [0x6C, 0x34, 0x12] = .decoded (.jmpInd 0x1234) [] ∧
  decode [0xA1, 0x10] = .decoded (.ldaIndX 0x10) [] ∧
  decode [0xB1, 0x10] = .decoded (.ldaIndY 0x10) []

/-! ## The bus -/

/-- The page table of R58 and `Translate` of R51 agree for every address of an admissible
configuration. -/
def Obligations.PageTableAgreesWithTranslate : Prop :=
  ∀ (cfg : Config) (a : Addr), cfg.valid = true →
    (pageEntry cfg (hiByte a)).target (loByte a) = translateAddr cfg a

/-- The open-bus addresses are exactly those of R55, and the graphics window is 0x2000 to 0x3FFF with
register number `a & 7` (R54). -/
def Obligations.OpenBusAndGraphicsWindowAddresses : Prop :=
  ∀ (cfg : Config) (a : Addr),
    (translateAddr cfg a = .openBus ↔
      (0x4000 ≤ a.toNat ∧ a.toNat ≤ 0x5FFF) ∨
      (0x6000 ≤ a.toNat ∧ a.toNat ≤ 0x7FFF ∧ cfg.sramSize = 0)) ∧
    (∀ r, translateAddr cfg a = .gfx r ↔
      0x2000 ≤ a.toNat ∧ a.toNat ≤ 0x3FFF ∧ r.toNat = a.toNat % 8)

/-- Work-RAM mirrors share storage (R52, R66): the four aliases of an address below 0x0800 read the
same byte, and a write through any of them is seen through all of them. -/
def Obligations.WorkRamMirrorsShareStorage : Prop :=
  ∀ (s : State) (a : Addr) (v : Byte) (j k : Nat), a.toNat < 0x0800 → j < 4 → k < 4 →
    (s.busRead (BitVec.ofNat 16 (a.toNat + 0x0800 * k))).1 = (s.busRead a).1 ∧
    ((s.busWrite (BitVec.ofNat 16 (a.toNat + 0x0800 * j)) v).busRead
      (BitVec.ofNat 16 (a.toNat + 0x0800 * k))).1 = v

/-- Save-RAM mirrors share storage (R56, R66): addresses of the window equal modulo `SRAM_SIZE` are
one cell. -/
def Obligations.SaveRamMirrorsShareStorage : Prop :=
  ∀ (s : State) (a b : Addr) (v : Byte), 0 < s.cfg.sramSize →
    0x6000 ≤ a.toNat → a.toNat ≤ 0x7FFF → 0x6000 ≤ b.toNat → b.toNat ≤ 0x7FFF →
    (a.toNat - 0x6000) % s.cfg.sramSize = (b.toNat - 0x6000) % s.cfg.sramSize →
    (s.busRead a).1 = (s.busRead b).1 ∧ ((s.busWrite a v).busRead b).1 = v

/-- Where storage lies behind an address, a read returns the byte of the last write, among any sequence
of writes, to a RAM cell the address shares, through any mirror; what was there before when there is
none. Writes to program ROM, to the graphics window and to open bus store nothing (R61, R66, R67,
R75). -/
def Obligations.ReadReturnsTheLastWrite : Prop :=
  ∀ (s : State) (writes : List (Addr × Byte)) (a : Addr) (before : Byte), s.peek a = some before →
    ((writes.foldl (fun u w => u.busWrite w.1 w.2) s).busRead a).1 =
      match writes.reverse.find? fun w =>
          decide (translateAddr s.cfg a = translateAddr s.cfg w.1) &&
            (translateAddr s.cfg w.1).isRam with
      | some w => w.2
      | none => before

/-- A write to 0x8000-0xFFFF changes nothing but the latch (R67); so does a write to open bus (R61; that
every write sets the latch is the spec's decision D23); a read of open bus returns the latch and changes
nothing (R65, derived by the spec). -/
def Obligations.RomAndOpenBusKeepTheirContents : Prop :=
  ∀ (s : State) (a : Addr) (v : Byte),
    (0x8000 ≤ a.toNat → s.busWrite a v = { s with latch := v }) ∧
    (translateAddr s.cfg a = .openBus →
      s.busWrite a v = { s with latch := v } ∧ s.busRead a = (s.latch, s))

/-- An open-bus read returns the byte of the bus access before it, whatever that was: the byte read, or
the byte written, to storage, to the graphics registers, to program ROM or to open bus itself (R31, R60,
R61, R65; that every access sets the latch is the spec's decision D23). -/
def Obligations.OpenBusReadsTheLastByteOnTheBus : Prop :=
  ∀ (s : State) (a b : Addr) (v : Byte), translateAddr s.cfg a = .openBus →
    ((s.busRead b).2.busRead a).1 = (s.busRead b).1 ∧ ((s.busWrite b v).busRead a).1 = v

/-- `CatchUp` (R62): when the CPU's time is ahead the co-processor's counter becomes exactly
`cpu_cycles * PPU_PER_CPU` and the co-processor is handed that target (R33); otherwise nothing
changes; nothing but `ppu` and `ppu_cycles` ever changes; a second call is a no-op. The premise on
`ppuTime` is the invariant of StepKeepsTheInvariant: it ties the model's record of the co-processor to
its counter (log 6). -/
def Obligations.CatchUpReachesTheCpuTime : Prop :=
  ∀ s : State, ppuTime s.ppu = s.ppuCycles →
    s.cpuCycles * s.cfg.ppuPerCpu ≤ s.catchUp.ppuCycles ∧
    s.catchUp.ppuCycles = max s.ppuCycles (s.cpuCycles * s.cfg.ppuPerCpu) ∧
    (s.ppuCycles < s.cpuCycles * s.cfg.ppuPerCpu →
      s.catchUp = { s with ppu := .catchUp (s.cpuCycles * s.cfg.ppuPerCpu) :: s.ppu,
                           ppuCycles := s.cpuCycles * s.cfg.ppuPerCpu }) ∧
    (s.cpuCycles * s.cfg.ppuPerCpu ≤ s.ppuCycles → s.catchUp = s) ∧
    s.catchUp.catchUp = s.catchUp

/-- An access in the graphics window first catches up, then samples or hands over register `a & 7`,
then sets the latch; the byte sampled is the co-processor's, a free value that may depend on the graphics
banks it holds (R62 to R64, log 6). -/
def Obligations.GraphicsAccessCatchesUpFirst : Prop :=
  ∀ (s : State) (a : Addr) (v : Byte), 0x2000 ≤ a.toNat → a.toNat ≤ 0x3FFF →
    let r : BitVec 3 := BitVec.ofNat 3 (a.toNat % 8)
    let s1 := s.catchUp
    let d := Config.ppuRegValue s.cfg.chrBanks s.cfg.chr s1.ppu r
    s.busRead a = (d, { s1 with ppu := .read r :: s1.ppu, latch := d }) ∧
    s.busWrite a v = { s1 with ppu := .write r v :: s1.ppu, latch := v } ∧
    s.cpuCycles * s.cfg.ppuPerCpu ≤ (s.busRead a).2.ppuCycles ∧
    s.cpuCycles * s.cfg.ppuPerCpu ≤ (s.busWrite a v).ppuCycles

/-! ## Addressing modes -/

/-- Zero-page, zero-page-X, zero-page-Y: the address is the operand byte, or its sum with the index
register reduced modulo 256; no bus access, penalty 0 (R115 to R117). Absolute: the operand (R119). -/
def Obligations.ZeroPageAndAbsoluteAddresses : Prop :=
  ∀ (s : State) (b1 : Byte) (w : Addr),
    ((resolve (.zp b1) s).ea.toNat = b1.toNat ∧
      (resolve (.zp b1) s).penalty = 0 ∧ (resolve (.zp b1) s).state = s) ∧
    ((resolve (.zpx b1) s).ea.toNat = (b1.toNat + s.x.toNat) % 256 ∧
      (resolve (.zpx b1) s).penalty = 0 ∧ (resolve (.zpx b1) s).state = s) ∧
    ((resolve (.zpy b1) s).ea.toNat = (b1.toNat + s.y.toNat) % 256 ∧
      (resolve (.zpy b1) s).penalty = 0 ∧ (resolve (.zpy b1) s).state = s) ∧
    ((resolve (.abs w) s).ea = w ∧
      (resolve (.abs w) s).penalty = 0 ∧ (resolve (.abs w) s).state = s)

/-- Absolute-X and absolute-Y: base plus index modulo 65536, one penalty cycle exactly when the page
changes; no bus access (R120, R121, R126). -/
def Obligations.IndexedAbsoluteAddressesAndPenalty : Prop :=
  ∀ (s : State) (w : Addr) (o : MemOperand) (index : Byte),
    (o = .absx w ∧ index = s.x ∨ o = .absy w ∧ index = s.y) →
    (resolve o s).ea.toNat = (w.toNat + index.toNat) % 65536 ∧
    (resolve o s).penalty =
      (if (w.toNat + index.toNat) % 65536 / 256 = w.toNat / 256 then 0 else 1) ∧
    (resolve o s).state = s

/-- The pointer modes: indexed-indirect adds `X` to the operand byte modulo 256 before reading the
pointer, indirect-indexed adds `Y` to the pointer read; both read the pointer's two bytes in page 0,
the second address wrapping there, and leave the state unchanged but for the latch (R122, R124, R73,
R126). -/
def Obligations.PointerModesReadInPageZero : Prop :=
  ∀ (s : State) (b1 : Byte),
    (∀ z lo hi : Byte, z.toNat = (b1.toNat + s.x.toNat) % 256 →
      s.peek (BitVec.ofNat 16 z.toNat) = some lo →
      s.peek (BitVec.ofNat 16 ((z.toNat + 1) % 256)) = some hi →
      (resolve (.indx b1) s).ea.toNat = lo.toNat + 256 * hi.toNat ∧
      (resolve (.indx b1) s).penalty = 0 ∧
      (resolve (.indx b1) s).state = { s with latch := hi }) ∧
    (∀ lo hi : Byte, s.peek (BitVec.ofNat 16 b1.toNat) = some lo →
      s.peek (BitVec.ofNat 16 ((b1.toNat + 1) % 256)) = some hi →
      (resolve (.indy b1) s).ea.toNat = (lo.toNat + 256 * hi.toNat + s.y.toNat) % 65536 ∧
      (resolve (.indy b1) s).penalty =
        (if (lo.toNat + 256 * hi.toNat + s.y.toNat) % 65536 / 256 = hi.toNat then 0 else 1) ∧
      (resolve (.indy b1) s).state = { s with latch := hi })

/-! ## Loads, stores, transfers -/

/-- LDA, LDX, LDY in every mode: the operand byte goes to the register, `Z` and `N` come from it, no
other flag, register or byte of memory changes; length, base cycles and penalty as tabled (R141 to
R143, R126). -/
def Obligations.LoadsTakeTheOperandAndSetNZ : Prop :=
  formsOf .lda = [(0xA1, .indx, 2, 6), (0xA5, .zp, 2, 3), (0xA9, .imm, 2, 2), (0xAD, .abs, 3, 4),
    (0xB1, .indy, 2, 5), (0xB5, .zpx, 2, 4), (0xB9, .absy, 3, 4), (0xBD, .absx, 3, 4)] ∧
  formsOf .ldx = [(0xA2, .imm, 2, 2), (0xA6, .zp, 2, 3), (0xAE, .abs, 3, 4), (0xB6, .zpy, 2, 4),
    (0xBE, .absy, 3, 4)] ∧
  formsOf .ldy = [(0xA0, .imm, 2, 2), (0xA4, .zp, 2, 3), (0xAC, .abs, 3, 4), (0xB4, .zpx, 2, 4),
    (0xBC, .absx, 3, 4)] ∧
  ∀ (i : Instr) (s : State),
    (i.mnemonic = .lda → ReadsThen i s fun m t =>
      t.a = m ∧ t.x = s.x ∧ t.y = s.y ∧ t.sp = s.sp ∧ NZ t.p m ∧ FlagsKeptBut [.z, .n] s t) ∧
    (i.mnemonic = .ldx → ReadsThen i s fun m t =>
      t.a = s.a ∧ t.x = m ∧ t.y = s.y ∧ t.sp = s.sp ∧ NZ t.p m ∧ FlagsKeptBut [.z, .n] s t) ∧
    (i.mnemonic = .ldy → ReadsThen i s fun m t =>
      t.a = s.a ∧ t.x = s.x ∧ t.y = m ∧ t.sp = s.sp ∧ NZ t.p m ∧ FlagsKeptBut [.z, .n] s t)

/-- STA, STX, STY in every mode: the register's byte is written at the effective address, which is
not read; no flag and no register but `PC` changes; every address that does not reach the cell reads
as before (R144 to R146, R126, R127). -/
def Obligations.StoresWriteTheRegisterAndNoFlag : Prop :=
  formsOf .sta = [(0x81, .indx, 2, 6), (0x85, .zp, 2, 3), (0x8D, .abs, 3, 4), (0x91, .indy, 2, 6),
    (0x95, .zpx, 2, 4), (0x99, .absy, 3, 5), (0x9D, .absx, 3, 5)] ∧
  formsOf .stx = [(0x86, .zp, 2, 3), (0x8E, .abs, 3, 4), (0x96, .zpy, 2, 4)] ∧
  formsOf .sty = [(0x84, .zp, 2, 3), (0x8C, .abs, 3, 4), (0x94, .zpx, 2, 4)] ∧
  ∀ (i : Instr) (s : State),
    (i.mnemonic = .sta → StoresRegister i s s.a) ∧
    (i.mnemonic = .stx → StoresRegister i s s.x) ∧
    (i.mnemonic = .sty → StoresRegister i s s.y)

/-- TAX, TAY, TXA, TYA, TSX copy a register and set `Z` and `N` from it; TXS copies `X` to `SP` and
changes no flag (R152, the spec's decision D34); nothing else changes (R147 to R151). -/
def Obligations.TransfersCopyARegister : Prop :=
  formsOf .tax = [(0xAA, .impl, 1, 2)] ∧ formsOf .tay = [(0xA8, .impl, 1, 2)] ∧
  formsOf .txa = [(0x8A, .impl, 1, 2)] ∧ formsOf .tya = [(0x98, .impl, 1, 2)] ∧
  formsOf .tsx = [(0xBA, .impl, 1, 2)] ∧ formsOf .txs = [(0x9A, .impl, 1, 2)] ∧
  ∀ s : State,
    (CompletesQuietly .tax s fun t => t.a = s.a ∧ t.x = s.a ∧ t.y = s.y ∧ t.sp = s.sp ∧
      NZ t.p s.a ∧ FlagsKeptBut [.z, .n] s t) ∧
    (CompletesQuietly .tay s fun t => t.a = s.a ∧ t.x = s.x ∧ t.y = s.a ∧ t.sp = s.sp ∧
      NZ t.p s.a ∧ FlagsKeptBut [.z, .n] s t) ∧
    (CompletesQuietly .txa s fun t => t.a = s.x ∧ t.x = s.x ∧ t.y = s.y ∧ t.sp = s.sp ∧
      NZ t.p s.x ∧ FlagsKeptBut [.z, .n] s t) ∧
    (CompletesQuietly .tya s fun t => t.a = s.y ∧ t.x = s.x ∧ t.y = s.y ∧ t.sp = s.sp ∧
      NZ t.p s.y ∧ FlagsKeptBut [.z, .n] s t) ∧
    (CompletesQuietly .tsx s fun t => t.a = s.a ∧ t.x = s.sp ∧ t.y = s.y ∧ t.sp = s.sp ∧
      NZ t.p s.sp ∧ FlagsKeptBut [.z, .n] s t) ∧
    (CompletesQuietly .txs s fun t => t.a = s.a ∧ t.x = s.x ∧ t.y = s.y ∧ t.sp = s.x ∧
      t.p = s.p)

/-! ## Arithmetic, logic, compares -/

/-- ADC in every mode: the sum `A + M + C` modulo 256, `C` when it exceeds 255, `V` exactly when the
signed sum lies outside -128 to 127, `Z` and `N` from the result, whatever `D` holds (R159, R161). -/
def Obligations.AddWithCarry : Prop :=
  formsOf .adc = [(0x61, .indx, 2, 6), (0x65, .zp, 2, 3), (0x69, .imm, 2, 2), (0x6D, .abs, 3, 4),
    (0x71, .indy, 2, 5), (0x75, .zpx, 2, 4), (0x79, .absy, 3, 4), (0x7D, .absx, 3, 4)] ∧
  ∀ (i : Instr) (s : State), i.mnemonic = .adc → ReadsThen i s fun m t =>
    t.a.toNat = (s.a.toNat + m.toNat + (flag s.p .c).toNat) % 256 ∧
    flag t.p .c = decide (255 < s.a.toNat + m.toNat + (flag s.p .c).toNat) ∧
    flag t.p .v = signedOverflow (s.a.toInt + m.toInt + (flag s.p .c).toNat) ∧
    NZ t.p t.a ∧ FlagsKeptBut [.c, .z, .v, .n] s t ∧ t.x = s.x ∧ t.y = s.y ∧ t.sp = s.sp

/-- SBC in every mode: `A - M - (1 - C)` modulo 256, `C` exactly when there was no borrow, `V` exactly
when the signed difference lies outside -128 to 127 (R159, R162). -/
def Obligations.SubtractWithBorrow : Prop :=
  formsOf .sbc = [(0xE1, .indx, 2, 6), (0xE5, .zp, 2, 3), (0xE9, .imm, 2, 2), (0xED, .abs, 3, 4),
    (0xF1, .indy, 2, 5), (0xF5, .zpx, 2, 4), (0xF9, .absy, 3, 4), (0xFD, .absx, 3, 4)] ∧
  ∀ (i : Instr) (s : State), i.mnemonic = .sbc → ReadsThen i s fun m t =>
    (t.a.toNat : Int) = ((s.a.toNat : Int) - m.toNat - (1 - (flag s.p .c).toNat)) % 256 ∧
    flag t.p .c = decide (0 ≤ (s.a.toNat : Int) - m.toNat - (1 - (flag s.p .c).toNat)) ∧
    flag t.p .v = signedOverflow (s.a.toInt - m.toInt - (1 - (flag s.p .c).toNat)) ∧
    NZ t.p t.a ∧ FlagsKeptBut [.c, .z, .v, .n] s t ∧ t.x = s.x ∧ t.y = s.y ∧ t.sp = s.sp

/-- AND, ORA, EOR in every mode, bit by bit, with `Z` and `N` from the result and no other flag
(R163 to R165). -/
def Obligations.BitwiseLogic : Prop :=
  formsOf .and = [(0x21, .indx, 2, 6), (0x25, .zp, 2, 3), (0x29, .imm, 2, 2), (0x2D, .abs, 3, 4),
    (0x31, .indy, 2, 5), (0x35, .zpx, 2, 4), (0x39, .absy, 3, 4), (0x3D, .absx, 3, 4)] ∧
  formsOf .ora = [(0x01, .indx, 2, 6), (0x05, .zp, 2, 3), (0x09, .imm, 2, 2), (0x0D, .abs, 3, 4),
    (0x11, .indy, 2, 5), (0x15, .zpx, 2, 4), (0x19, .absy, 3, 4), (0x1D, .absx, 3, 4)] ∧
  formsOf .eor = [(0x41, .indx, 2, 6), (0x45, .zp, 2, 3), (0x49, .imm, 2, 2), (0x4D, .abs, 3, 4),
    (0x51, .indy, 2, 5), (0x55, .zpx, 2, 4), (0x59, .absy, 3, 4), (0x5D, .absx, 3, 4)] ∧
  ∀ (i : Instr) (s : State), i.mnemonic ∈ [.and, .ora, .eor] → ReadsThen i s fun m t =>
    (∀ k, k < 8 → t.a.getLsbD k =
      (if i.mnemonic = .and then s.a.getLsbD k && m.getLsbD k
       else if i.mnemonic = .ora then s.a.getLsbD k || m.getLsbD k
       else s.a.getLsbD k != m.getLsbD k)) ∧
    NZ t.p t.a ∧ FlagsKeptBut [.z, .n] s t ∧ t.x = s.x ∧ t.y = s.y ∧ t.sp = s.sp

/-- CMP, CPX, CPY in every mode: `C` when the register is not below the operand, `Z` when equal, `N`
bit 7 of the difference modulo 256; `V` and every register keep their values (R166 to R168). -/
def Obligations.ComparesSetFlagsOnly : Prop :=
  formsOf .cmp = [(0xC1, .indx, 2, 6), (0xC5, .zp, 2, 3), (0xC9, .imm, 2, 2), (0xCD, .abs, 3, 4),
    (0xD1, .indy, 2, 5), (0xD5, .zpx, 2, 4), (0xD9, .absy, 3, 4), (0xDD, .absx, 3, 4)] ∧
  formsOf .cpx = [(0xE0, .imm, 2, 2), (0xE4, .zp, 2, 3), (0xEC, .abs, 3, 4)] ∧
  formsOf .cpy = [(0xC0, .imm, 2, 2), (0xC4, .zp, 2, 3), (0xCC, .abs, 3, 4)] ∧
  ∀ (i : Instr) (s : State),
    (i.mnemonic = .cmp → ReadsThen i s fun m t => Compared s.a m s t) ∧
    (i.mnemonic = .cpx → ReadsThen i s fun m t => Compared s.x m s t) ∧
    (i.mnemonic = .cpy → ReadsThen i s fun m t => Compared s.y m s t)

/-- BIT: `Z` from `A & M`, `N` and `V` from bits 7 and 6 of the operand itself (R169). -/
def Obligations.BitTestFlags : Prop :=
  formsOf .bit = [(0x24, .zp, 2, 3), (0x2C, .abs, 3, 4)] ∧
  ∀ (i : Instr) (s : State), i.mnemonic = .bit → ReadsThen i s fun m t =>
    flag t.p .z = decide (s.a &&& m = 0) ∧ flag t.p .n = m.getLsbD 7 ∧
    flag t.p .v = m.getLsbD 6 ∧ FlagsKeptBut [.z, .v, .n] s t ∧ RegsKept s t

/-! ## Increments, decrements, shifts -/

/-- INC and DEC on memory: one read and one write of the effective address, the byte plus or minus 1
modulo 256, `Z` and `N` from it, `C` and `V` kept (R170 to R172, R127). -/
def Obligations.IncrementDecrementMemory : Prop :=
  formsOf .inc = [(0xE6, .zp, 2, 5), (0xEE, .abs, 3, 6), (0xF6, .zpx, 2, 6), (0xFE, .absx, 3, 7)] ∧
  formsOf .dec = [(0xC6, .zp, 2, 5), (0xCE, .abs, 3, 6), (0xD6, .zpx, 2, 6), (0xDE, .absx, 3, 7)] ∧
  ∀ (i : Instr) (s : State),
    (i.mnemonic = .inc → ModifiesThen i s fun v r t =>
      r.toNat = (v.toNat + 1) % 256 ∧ NZ t.p r ∧ FlagsKeptBut [.z, .n] s t) ∧
    (i.mnemonic = .dec → ModifiesThen i s fun v r t =>
      r.toNat = (v.toNat + 255) % 256 ∧ NZ t.p r ∧ FlagsKeptBut [.z, .n] s t)

/-- INX, INY, DEX, DEY: the register plus or minus 1 modulo 256, `Z` and `N` from it (R173 to
R176). -/
def Obligations.IncrementDecrementRegisters : Prop :=
  formsOf .inx = [(0xE8, .impl, 1, 2)] ∧ formsOf .iny = [(0xC8, .impl, 1, 2)] ∧
  formsOf .dex = [(0xCA, .impl, 1, 2)] ∧ formsOf .dey = [(0x88, .impl, 1, 2)] ∧
  ∀ s : State,
    (CompletesQuietly .inx s fun t => t.x.toNat = (s.x.toNat + 1) % 256 ∧ NZ t.p t.x ∧
      FlagsKeptBut [.z, .n] s t ∧ t.a = s.a ∧ t.y = s.y ∧ t.sp = s.sp) ∧
    (CompletesQuietly .iny s fun t => t.y.toNat = (s.y.toNat + 1) % 256 ∧ NZ t.p t.y ∧
      FlagsKeptBut [.z, .n] s t ∧ t.a = s.a ∧ t.x = s.x ∧ t.sp = s.sp) ∧
    (CompletesQuietly .dex s fun t => t.x.toNat = (s.x.toNat + 255) % 256 ∧ NZ t.p t.x ∧
      FlagsKeptBut [.z, .n] s t ∧ t.a = s.a ∧ t.y = s.y ∧ t.sp = s.sp) ∧
    (CompletesQuietly .dey s fun t => t.y.toNat = (s.y.toNat + 255) % 256 ∧ NZ t.p t.y ∧
      FlagsKeptBut [.z, .n] s t ∧ t.a = s.a ∧ t.x = s.x ∧ t.sp = s.sp)

/-- ASL, LSR, ROL, ROR in accumulator mode and on memory: result and carry as R177 to R180 give them,
`Z` and `N` from the result, `V` kept; the memory form makes one read and one write of its effective
address (R170, R127). -/
def Obligations.ShiftsAndRotates : Prop :=
  formsOf .asl = [(0x06, .zp, 2, 5), (0x0A, .acc, 1, 2), (0x0E, .abs, 3, 6), (0x16, .zpx, 2, 6),
    (0x1E, .absx, 3, 7)] ∧
  formsOf .lsr = [(0x46, .zp, 2, 5), (0x4A, .acc, 1, 2), (0x4E, .abs, 3, 6), (0x56, .zpx, 2, 6),
    (0x5E, .absx, 3, 7)] ∧
  formsOf .rol = [(0x26, .zp, 2, 5), (0x2A, .acc, 1, 2), (0x2E, .abs, 3, 6), (0x36, .zpx, 2, 6),
    (0x3E, .absx, 3, 7)] ∧
  formsOf .ror = [(0x66, .zp, 2, 5), (0x6A, .acc, 1, 2), (0x6E, .abs, 3, 6), (0x76, .zpx, 2, 6),
    (0x7E, .absx, 3, 7)] ∧
  ∀ (i : Instr) (s : State), i.mnemonic ∈ shifts →
    (i.operand = .acc → CompletesQuietly i s fun t =>
      ShiftResult i.mnemonic s.a (flag s.p .c) t.a (flag t.p .c) ∧ NZ t.p t.a ∧
      FlagsKeptBut [.c, .z, .n] s t ∧ t.x = s.x ∧ t.y = s.y ∧ t.sp = s.sp) ∧
    (i.operand ≠ .acc → ModifiesThen i s fun v r t =>
      ShiftResult i.mnemonic v (flag s.p .c) r (flag t.p .c) ∧ NZ t.p r ∧
      FlagsKeptBut [.c, .z, .n] s t)

/-! ## Control flow -/

/-- The eight branches: taken exactly when the tested flag has the tested value; the target is the
displacement from the next instruction modulo 65536; 2 cycles not taken, 3 taken within the page of
the next instruction, 4 taken to another; nothing else changes (R186 to R193, R185, R118; the cycles of
a taken branch, the page compared with and the wrap are the spec's decisions D11, D31, D21). The
displacement is any signed 8-bit number (R93); what the model does with other integers is its own
choice (log 10) and not stated. -/
def Obligations.BranchesTestOneFlag : Prop :=
  formsOf .bcc = [(0x90, .rel, 2, 2)] ∧ formsOf .bcs = [(0xB0, .rel, 2, 2)] ∧
  formsOf .beq = [(0xF0, .rel, 2, 2)] ∧ formsOf .bne = [(0xD0, .rel, 2, 2)] ∧
  formsOf .bmi = [(0x30, .rel, 2, 2)] ∧ formsOf .bpl = [(0x10, .rel, 2, 2)] ∧
  formsOf .bvc = [(0x50, .rel, 2, 2)] ∧ formsOf .bvs = [(0x70, .rel, 2, 2)] ∧
  ∀ e ∈ branches, ∀ (disp : Int) (s : State), -128 ≤ disp → disp ≤ 127 →
    let i := e.1 disp
    let next := (s.pc.toNat + 2) % 65536
    let target := ((next : Int) + disp) % 65536
    let taken := flag s.p e.2.1 == e.2.2
    ∃ t, Completes i s s t
        (if taken then (if target / 256 = (next : Int) / 256 then 3 else 4) else 2)
        (if taken then BitVec.ofInt 16 target else BitVec.ofNat 16 next) ∧
      MemKept s t ∧ RegsKept s t ∧ t.p = s.p

/-- JMP absolute goes to its operand in 3 cycles; JMP indirect goes, in 5, to the address whose low
byte is read at the pointer and whose high byte is read, after it, at the pointer plus 1, or in the
pointer's page when `JMP_IND_WRAP` (R194, R123, R73). Holds for both values of the parameter. -/
def Obligations.JumpsAbsoluteAndIndirect : Prop :=
  formsOf .jmp = [(0x4C, .abs, 3, 3), (0x6C, .ind, 3, 5)] ∧
  ∀ (w : Addr) (s : State),
    (∃ t, Completes (.jmpAbs w) s s t 3 w ∧ MemKept s t ∧ RegsKept s t ∧ t.p = s.p) ∧
    (let second : Addr :=
        if s.cfg.jmpIndWrap then (w &&& 0xFF00) ||| ((w + 1) &&& 0x00FF) else w + 1
     let lo := s.busRead w
     let hi := lo.2.busRead second
     ∃ t, Completes (.jmpInd w) s hi.2 t 5 (BitVec.ofNat 16 (lo.1.toNat + 256 * hi.1.toNat)) ∧
       MemKept s t ∧ RegsKept s t ∧ t.p = s.p)

/-- JSR pushes the address of its own last byte, high byte first, and jumps (R195; that the pushed
address is this one is the spec's decision D9). -/
def Obligations.JumpToSubroutinePushesReturnAddress : Prop :=
  formsOf .jsr = [(0x20, .abs, 3, 6)] ∧
  ∀ (w : Addr) (s : State), ∃ t,
    Completes (.jsr w) s { s with latch := loByte (s.pc + 2) } t 6 w ∧
    t.sp = s.sp - 2 ∧ t.a = s.a ∧ t.x = s.x ∧ t.y = s.y ∧ t.p = s.p ∧
    t.peek (stackAddr s.sp) = some (hiByte (s.pc + 2)) ∧
    t.peek (stackAddr (s.sp - 1)) = some (loByte (s.pc + 2)) ∧
    ∀ a, translateAddr s.cfg a ≠ translateAddr s.cfg (stackAddr s.sp) →
      translateAddr s.cfg a ≠ translateAddr s.cfg (stackAddr (s.sp - 1)) → t.peek a = s.peek a

/-- RTS pulls the low and then the high byte and goes to that address plus 1 (R196). -/
def Obligations.ReturnFromSubroutine : Prop :=
  formsOf .rts = [(0x60, .impl, 1, 6)] ∧
  ∀ s : State, ∃ lo hi t, s.peek (stackAddr (s.sp + 1)) = some lo ∧
    s.peek (stackAddr (s.sp + 2)) = some hi ∧
    Completes .rts s { s with latch := hi } t 6
      (BitVec.ofNat 16 (lo.toNat + 256 * hi.toNat + 1)) ∧
    t.sp = s.sp + 2 ∧ t.a = s.a ∧ t.x = s.x ∧ t.y = s.y ∧ t.p = s.p ∧ MemKept s t

/-- Call and return: whatever a subroutine does, if it comes to its RTS with the stack pointer it
started with and the two bytes the JSR pushed in place, the RTS goes to the instruction after the JSR
and the stack pointer is what it was before the call (R195, R196). -/
def Obligations.SubroutineReturnsAfterTheCall : Prop :=
  ∀ (w : Addr) (s t u : State), exec (.jsr w) s = .next t → u.sp = t.sp →
    u.peek (stackAddr (t.sp + 1)) = t.peek (stackAddr (t.sp + 1)) →
    u.peek (stackAddr (t.sp + 2)) = t.peek (stackAddr (t.sp + 2)) →
    ∃ v, exec .rts u = .next v ∧ v.pc = s.pc + 3 ∧ v.sp = s.sp

/-! ## Stack, flags, system -/

/-- PHA pushes `A`; PHP pushes `P` with bits 4 and 5 set and leaves `P` as it was: a write at
`0x0100 | SP`, then `SP - 1` modulo 256 (R201, R203, R27; bits 4 and 5 are the spec's decision D6). -/
def Obligations.PushesStoreThenDecrement : Prop :=
  formsOf .pha = [(0x48, .impl, 1, 3)] ∧ formsOf .php = [(0x08, .impl, 1, 3)] ∧
  (∀ sp : Byte, (stackAddr sp).toNat = 0x0100 + sp.toNat) ∧
  ∀ (s : State) (i : Instr) (v : Byte),
    (i = .pha ∧ v = s.a ∨ i = .php ∧ v = s.p ||| 0x30) →
    ∃ t, Completes i s { s with latch := v } t 3 (nextPc i s) ∧ StoredAt s t (stackAddr s.sp) v ∧
      t.peek (stackAddr s.sp) = some v ∧ t.sp.toNat = (s.sp.toNat + 255) % 256 ∧ t.a = s.a ∧
      t.x = s.x ∧ t.y = s.y ∧ t.p = s.p

/-- PLA pulls into `A` and sets `Z` and `N`; PLP pulls into `P`, but for bits 4 and 5: `SP + 1` modulo
256, then a read at `0x0100 | SP` (R202, R204, R27, R25; bits 4 and 5 are the spec's decision D6). -/
def Obligations.PullsIncrementThenLoad : Prop :=
  formsOf .pla = [(0x68, .impl, 1, 4)] ∧ formsOf .plp = [(0x28, .impl, 1, 4)] ∧
  ∀ s : State, ∃ v, s.peek (BitVec.ofNat 16 (0x0100 + (s.sp.toNat + 1) % 256)) = some v ∧
    (∃ t, Completes .pla s { s with latch := v } t 4 (nextPc .pla s) ∧ MemKept s t ∧
      t.a = v ∧ t.x = s.x ∧ t.y = s.y ∧ t.sp = s.sp + 1 ∧ NZ t.p v ∧
      FlagsKeptBut [.z, .n] s t) ∧
    (∃ t, Completes .plp s { s with latch := v } t 4 (nextPc .plp s) ∧ MemKept s t ∧
      t.a = s.a ∧ t.x = s.x ∧ t.y = s.y ∧ t.sp = s.sp + 1 ∧
      t.p = (v &&& 0xCF) ||| (s.p &&& 0x30))

/-- The seven flag instructions write exactly one bit of `P` and nothing else (R205 to R211). -/
def Obligations.FlagInstructionsWriteOneBit : Prop :=
  formsOf .clc = [(0x18, .impl, 1, 2)] ∧ formsOf .sec = [(0x38, .impl, 1, 2)] ∧
  formsOf .cli = [(0x58, .impl, 1, 2)] ∧ formsOf .sei = [(0x78, .impl, 1, 2)] ∧
  formsOf .clv = [(0xB8, .impl, 1, 2)] ∧ formsOf .cld = [(0xD8, .impl, 1, 2)] ∧
  formsOf .sed = [(0xF8, .impl, 1, 2)] ∧
  ∀ e ∈ flagWrites, ∀ s : State, CompletesQuietly e.1 s fun t =>
    flag t.p e.2.1 = e.2.2 ∧ FlagsKeptBut [e.2.1] s t ∧ RegsKept s t

/-- BRK, the trap entry: pushes `pc0 + 2` high byte first and then `P | 0x30`, sets `I` and no other
flag, and goes to the little-endian address at 0xFFFE (R212, R226). -/
def Obligations.BreakEntersTheHandler : Prop :=
  formsOf .brk = [(0x00, .impl, 1, 7)] ∧
  ∀ s : State, ∃ lo hi t, s.peek 0xFFFE = some lo ∧ s.peek 0xFFFF = some hi ∧
    Completes .brk s { s with latch := hi } t 7 (BitVec.ofNat 16 (lo.toNat + 256 * hi.toNat)) ∧
    t.sp = s.sp - 3 ∧ t.a = s.a ∧ t.x = s.x ∧ t.y = s.y ∧
    flag t.p .i = true ∧ FlagsKeptBut [.i] s t ∧
    t.peek (stackAddr s.sp) = some (hiByte (s.pc + 2)) ∧
    t.peek (stackAddr (s.sp - 1)) = some (loByte (s.pc + 2)) ∧
    t.peek (stackAddr (s.sp - 2)) = some (s.p ||| 0x30) ∧
    ∀ a, translateAddr s.cfg a ≠ translateAddr s.cfg (stackAddr s.sp) →
      translateAddr s.cfg a ≠ translateAddr s.cfg (stackAddr (s.sp - 1)) →
      translateAddr s.cfg a ≠ translateAddr s.cfg (stackAddr (s.sp - 2)) → t.peek a = s.peek a

/-- RTI, the trap return: pulls `P`, but for bits 4 and 5, then the low and high byte of `PC`, with no
increment (R213, R227). -/
def Obligations.ReturnFromInterrupt : Prop :=
  formsOf .rti = [(0x40, .impl, 1, 6)] ∧
  ∀ s : State, ∃ q lo hi t, s.peek (stackAddr (s.sp + 1)) = some q ∧
    s.peek (stackAddr (s.sp + 2)) = some lo ∧ s.peek (stackAddr (s.sp + 3)) = some hi ∧
    Completes .rti s { s with latch := hi } t 6 (BitVec.ofNat 16 (lo.toNat + 256 * hi.toNat)) ∧
    t.sp = s.sp + 3 ∧ t.p = (q &&& 0xCF) ||| (s.p &&& 0x30) ∧ t.a = s.a ∧ t.x = s.x ∧
    t.y = s.y ∧ MemKept s t

/-- Trap and return: whatever a handler does, if it comes to its RTI with the stack pointer BRK left
and BRK's three bytes in place, execution resumes at `pc0 + 2` of the BRK with the stack pointer and
all six pulled flags of the interrupted program (R227). -/
def Obligations.InterruptReturnsPastTheBreak : Prop :=
  ∀ s t u : State, exec .brk s = .next t → u.sp = t.sp →
    (∀ k : Byte, k ∈ [1, 2, 3] →
      u.peek (stackAddr (t.sp + k)) = t.peek (stackAddr (t.sp + k))) →
    ∃ v, exec .rti u = .next v ∧ v.pc = s.pc + 2 ∧ v.sp = s.sp ∧
      v.p = (s.p &&& 0xCF) ||| (u.p &&& 0x30)

/-- NOP advances `PC` by 1 and the clock by 2; nothing else changes (R214). -/
def Obligations.NopOnlyAdvances : Prop :=
  formsOf .nop = [(0xEA, .impl, 1, 2)] ∧
  ∀ s : State, exec .nop s = .next { s with pc := s.pc + 1, cpuCycles := s.cpuCycles + 2 }

/-! ## The whole instruction set -/

/-- Every instruction completes in every state, costs 2 to 8 cycles, and changes neither the
configuration (so not program ROM) nor the halt record (R220, R136, R67, R9). -/
def Obligations.EveryInstructionCompletes : Prop :=
  ∀ (i : Instr) (s : State), ∃ t, exec i s = .next t ∧ s.cpuCycles + 2 ≤ t.cpuCycles ∧
    t.cpuCycles ≤ s.cpuCycles + 8 ∧ t.cfg = s.cfg ∧ t.halted = s.halted

/-- The index of R21: only the mnemonics listed there write `A`, `X`, `Y` and `SP`. -/
def Obligations.RegistersChangeOnlyByTheirWriters : Prop :=
  ∀ (i : Instr) (s t : State), exec i s = .next t →
    (i.mnemonic ∉ [.lda, .txa, .tya, .pla, .adc, .sbc, .and, .ora, .eor] →
      ¬ (i.mnemonic ∈ shifts ∧ i.operand = .acc) → t.a = s.a) ∧
    (i.mnemonic ∉ [.ldx, .tax, .tsx, .inx, .dex] → t.x = s.x) ∧
    (i.mnemonic ∉ [.ldy, .tay, .iny, .dey] → t.y = s.y) ∧
    (i.mnemonic ∉ [.txs, .pha, .php, .pla, .plp, .jsr, .rts, .brk, .rti] → t.sp = s.sp)

/-- The table of R23: a flag is written only by the mnemonics of its row; `B` and `U` by none, so
bits 4 and 5 of `P` never change (R25). -/
def Obligations.FlagsChangeOnlyByTheirWriters : Prop :=
  ∀ (i : Instr) (s t : State) (f : Flag), exec i s = .next t →
    i.mnemonic ∉ flagWriters f → flag t.p f = flag s.p f

/-- Only the write class, the modify class on memory and the pushing instructions change a byte of
memory (R80). -/
def Obligations.MemoryChangesOnlyByStores : Prop :=
  ∀ (i : Instr) (s t : State), exec i s = .next t →
    i.mnemonic ∉ [.sta, .stx, .sty, .pha, .php, .jsr, .brk] →
    ¬ (i.mnemonic ∈ modifyClass ∧ i.operand ≠ .acc) → MemKept s t

/-- Only an access in the graphics window reaches the co-processor: an instruction that makes none
there leaves `ppu` and `ppu_cycles` alone (R72). -/
def Obligations.OnlyWindowAccessesReachTheCoprocessor : Prop :=
  ∀ (i : Instr) (s t : State), exec i s = .next t →
    (∀ m r, i.operand = .mem m → i.mnemonic ∉ [.jmp, .jsr] →
      translateAddr s.cfg (resolve m s).ea ≠ .gfx r) →
    (∀ w r, i.operand = .ind w → translateAddr s.cfg w ≠ .gfx r ∧
      translateAddr s.cfg (indirectHigh s.cfg w) ≠ .gfx r) →
    t.ppu = s.ppu ∧ t.ppuCycles = s.ppuCycles

/-- `I` and `D` are inert (R24, R28): for every instruction that neither stores `P` nor writes one of
the two bits, the same step from a state that differs only in one of them ends in a state that differs
only in it. In particular ADC and SBC compute the same whatever `D` holds. -/
def Obligations.InterruptDisableAndDecimalAreInert : Prop :=
  ∀ (i : Instr) (s t : State) (f : Flag) (b : Bool), (f = .i ∨ f = .d) →
    i.mnemonic ∉ [.php, .plp, .brk, .rti, .sei, .cli, .sed, .cld] → exec i s = .next t →
    exec i { s with p := setFlag s.p f b } = .next { t with p := setFlag t.p f b }

/-! ## The step, reset and run -/

/-- A step of a running core executes the instruction its fetched bytes decode to, in the state the
fetch left (R110, R111). The first premise is the model's: other configurations are refused (log 8). -/
def Obligations.StepExecutesWhatItFetches : Prop :=
  ∀ (s : State) (i : Instr) (rest : List Byte), s.cfg.valid = true → s.halted = none →
    decode s.fetch.1 = .decoded i rest → step s = exec i s.fetch.2

/-- Where the bytes stored at `PC` and on are the encoding of a well-formed instruction, a step is its
execution in the state with the last of those bytes in the latch: no operand bit is lost in the fetch
(R90, R111, R129). So too where the fetch reads an encoding anywhere else, from open bus or the graphics
window: the step is the execution in the state the last of the 1, 2 or 3 reads left. That `PC` moves in
the execution only is the model's choice (log 12: R111 moves it between operand fetch and resolver);
the first premise is the model's too (log 8). -/
def Obligations.StepExecutesTheStoredInstruction : Prop :=
  (∀ (s : State) (i : Instr), s.cfg.valid = true → s.halted = none → i.wellFormed = true →
    (∀ k, k < i.length → s.peek (BitVec.ofNat 16 (s.pc.toNat + k)) = (encode i)[k]?) →
    step s = exec i { s with latch := (encode i).getLastD 0 }) ∧
  ∀ (s : State) (i : Instr), s.cfg.valid = true → s.halted = none → i.wellFormed = true →
    let b0 := s.busRead s.pc
    let b1 := b0.2.busRead (s.pc + 1)
    let b2 := b1.2.busRead (s.pc + 2)
    (encode i = [b0.1] → step s = exec i b0.2) ∧
    (encode i = [b0.1, b1.1] → step s = exec i b1.2) ∧
    (encode i = [b0.1, b1.1, b2.1] → step s = exec i b2.2)

/-- The invalid-opcode halt (R221), wherever the opcode is fetched from: when the byte the fetch reads is
unassigned (R98), the step makes the record (`PC`, byte) and no register, no memory, not the CPU counter
changes; no other byte halts the core (R220). From storage or open bus, where the opcode is the latch
(R65), nothing changes but the latch; in the graphics window the fetch itself ran the catch-up and
sampled the register (R221's exception, R63, log 6). The first premise is the model's (log 8). -/
def Obligations.InvalidOpcodeHaltsTheCore : Prop :=
  ∀ s : State, s.cfg.valid = true → s.halted = none →
    let op := (s.busRead s.pc).1
    let u := (s.busRead s.pc).2
    (op ∈ invalidOpcodes → step s = .next { u with halted := some (s.pc, op) }) ∧
    (op ∉ invalidOpcodes → ∃ t, step s = .next t ∧ t.halted = none) ∧
    u.latch = op ∧ u.pc = s.pc ∧ RegsKept s u ∧ u.p = s.p ∧ u.wram = s.wram ∧ u.sram = s.sram ∧
    u.cfg = s.cfg ∧ u.cpuCycles = s.cpuCycles ∧
    (∀ v, s.peek s.pc = some v → op = v ∧ u = { s with latch := v }) ∧
    (translateAddr s.cfg s.pc = .openBus → op = s.latch ∧ u = s) ∧
    (∀ r, translateAddr s.cfg s.pc = .gfx r → u.ppu = .read r :: s.catchUp.ppu ∧
      u.ppuCycles = max s.ppuCycles (s.cpuCycles * s.cfg.ppuPerCpu))

/-- A halted core does nothing (R133). The first premise is the model's (log 8). -/
def Obligations.HaltedCoreDoesNothing : Prop :=
  ∀ s : State, s.cfg.valid = true → s.halted ≠ none → step s = .next s

/-- A configuration that breaks a constraint of R9 is refused by name: the model's own choice, after
U9 (log 8). -/
def Obligations.InadmissibleConfigurationIsRefused : Prop :=
  ∀ s : State, (s.cfg.prgBanks = 0 ∨ s.cfg.sramSize % 256 ≠ 0 ∨ 8192 < s.cfg.sramSize ∨
    s.cfg.ppuPerCpu = 0) → step s = .refused .invalidConfiguration

/-- Every step of an admissible configuration answers a next state; the counters never decrease, the
configuration, program ROM with it, never changes, and the step either advances the CPU counter by 2
to 8 or leaves the core halted (R59, R220, R231, R67, R136). -/
def Obligations.StepAlwaysAnswersAndClocksAdvance : Prop :=
  ∀ s : State, s.cfg.valid = true → ∃ t, step s = .next t ∧ t.cfg = s.cfg ∧
    s.ppuCycles ≤ t.ppuCycles ∧
    (t.halted = none ∧ s.cpuCycles + 2 ≤ t.cpuCycles ∧ t.cpuCycles ≤ s.cpuCycles + 8 ∨
      t.halted ≠ none ∧ t.cpuCycles = s.cpuCycles)

/-- Every step keeps the invariant: admissible configuration, canonical memories, bits 4 and 5 of `P`
zero (R25), `ppu_cycles <= cpu_cycles * PPU_PER_CPU` (R231), the halt record naming `PC` and an
unassigned opcode (R221). -/
def Obligations.StepKeepsTheInvariant : Prop :=
  ∀ s t : State, Inv s → step s = .next t → Inv t

/-- The invariant holds at reset. -/
def Obligations.ResetHasTheInvariant : Prop := Inv State.reset

/-- Power-on with any configuration whose program ROM has banks, any memories and any latch leaves
what R38 and R250 say: registers, counters, no halt, the memories untouched, `PC` the two bytes at
0xFFFC and 0xFFFD, the latch the second of them (latch, memories, `ppu` and `halted` are the spec's
decisions D18, D17, D27, D20; `PpuInit` as the empty list and the latch as an argument are the model's,
log 6 and log 5). The model's `State.reset` is one such state (log 2). -/
def Obligations.PowerOnLeavesTheResetValues : Prop :=
  (∀ (cfg : Config) (wram sram : Memory) (latch : Byte), ∃ lo hi : Byte,
    let s := State.powerOn cfg wram sram latch
    s.peek 0xFFFC = some lo ∧ s.peek 0xFFFD = some hi ∧
    s = { a := 0x00, x := 0x00, y := 0x00, sp := 0xFF, p := 0x00,
          pc := BitVec.ofNat 16 (lo.toNat + 256 * hi.toNat), wram := wram, sram := sram,
          latch := hi, cpuCycles := 0, ppuCycles := 0, ppu := [], halted := none, cfg := cfg }) ∧
  State.reset = State.powerOn Config.base [] [] 0x00

/-- In every state a run reaches, from power-on with any admissible configuration and any initial
memories, the invariant holds; in particular bits 4 and 5 of `P` are 0 (R25) and the co-processor's
counter is not ahead of the CPU's (R231). -/
def Obligations.ReachableStatesHaveTheInvariant : Prop :=
  ∀ s : State, Reachable s → Inv s

/-- `Run(bound)` always returns one of its two results (R134, R222), in a state it came to by steps,
each taken while the core ran and the bound was not met: `RanToBound` with the core running and the bound
met, overshot by at most 7, or the halt record of a halted core; a core that is halted or has met the
bound is left as it is. The premise is the model's (log 8). -/
def Obligations.RunStopsAtTheBoundOrTheHalt : Prop :=
  ∀ (bound : Nat) (s : State), s.cfg.valid = true → ∃ r t, run bound s = .next (r, t) ∧
    RunsTo bound s t ∧
    ((s.halted ≠ none ∨ bound ≤ s.cpuCycles) → t = s) ∧
    ((t.halted = none ∧ r = .ranToBound ∧ bound ≤ t.cpuCycles ∧
        (s.cpuCycles < bound → t.cpuCycles ≤ bound + 7)) ∨
      (∃ addr op, t.halted = some (addr, op) ∧
        r = .haltedInvalidOpcode (.invalidOpcode addr op)))

/-- The graphics banks and the mapper number have no effect on the CPU bus (R68; that the banks are the
co-processor's own is the spec's decision D33, that every mapper number is accepted alike D25): with
others in their place every address translates, every stored byte reads and every write ends as before;
so does every read outside the graphics window. Of a register read only the byte sampled may differ, and
not even that where only the mapper number does. -/
def Obligations.GraphicsBanksAndMapperDoNotReachTheBus : Prop :=
  ∀ (s : State) (banks : Nat) (chr : List Host.Cell) (mapper : Byte) (a : Addr) (v : Byte),
    let other (u : State) : State :=
      { u with cfg := { u.cfg with chrBanks := banks, chr := chr, mapperId := mapper } }
    let d := (other s).busRead a
    translateAddr (other s).cfg a = translateAddr s.cfg a ∧ (other s).peek a = s.peek a ∧
    (other s).busWrite a v = other (s.busWrite a v) ∧
    d.2 = other { (s.busRead a).2 with latch := d.1 } ∧
    ((∀ r, translateAddr s.cfg a ≠ .gfx r) ∨ banks = s.cfg.chrBanks ∧ chr = s.cfg.chr →
      d.1 = (s.busRead a).1)
end

