-- ==== Sys2Proof/Laws/Flags.lean ====
section
/-! SUPPORT. What each flag computation leaves in each flag. -/

namespace Sys2Proof.Machine

@[simp] theorem flag_setFlag (p : Byte) (f g : Flag) (b : Bool) :
    flag (setFlag p f b) g = if g = f then b else flag p g := by
  cases f <;> cases g <;> cases b <;> simp [flag, setFlag, Flag.bit]

/-- Two status bytes with the same flags are the same byte. -/
theorem status_ext {p q : Byte} (h : ∀ f, flag p f = flag q f) : p = q := by
  apply BitVec.eq_of_getLsbD_eq
  intro i hi
  have hc := h .c; have hz := h .z; have hi' := h .i; have hd := h .d
  have hb := h .b; have hu := h .u; have hv := h .v; have hn := h .n
  simp only [flag, Flag.bit] at hc hz hi' hd hb hu hv hn
  interval_cases i <;> assumption

/-- Writing two different flags commutes. -/
theorem setFlag_comm (p : Byte) {f g : Flag} (b c : Bool) (h : f ≠ g) :
    setFlag (setFlag p f b) g c = setFlag (setFlag p g c) f b := by
  apply status_ext
  intro k
  simp only [flag_setFlag]
  split_ifs with h1 h2
  · exact absurd (h2 ▸ h1 ▸ rfl) h.symm
  all_goals rfl

@[simp] theorem flag_setNZ (p v : Byte) (g : Flag) :
    flag (setNZ p v) g = if g = .n then v.msb else if g = .z then v == 0 else flag p g := by
  simp [setNZ]

theorem msb_eq_bit7 (v : Byte) : v.msb = v.getLsbD 7 := by simp [BitVec.msb_eq_getLsbD_last]

@[simp] theorem flag_pushedStatus (p : Byte) (g : Flag) :
    flag (pushedStatus p) g = if g = .b ∨ g = .u then true else flag p g := by
  cases g <;> simp [flag, pushedStatus, Flag.bit]

@[simp] theorem flag_pulledStatus (p t : Byte) (g : Flag) :
    flag (pulledStatus p t) g = if g = .b ∨ g = .u then flag p g else flag t g := by
  cases g <;> simp [flag, pulledStatus, Flag.bit]

/-- Bits 4 and 5 of `P` are 0 exactly when the flags `B` and `U` are clear (R25). -/
theorem status_reserved_iff (p : Byte) :
    p &&& 0x30 = 0 ↔ flag p .b = false ∧ flag p .u = false := by
  simp only [flag, Flag.bit]
  revert p
  decide +kernel

@[simp] theorem passNZ_fst (v p : Byte) : (passNZ v p).1 = v := rfl

@[simp] theorem flag_passNZ (v p : Byte) (g : Flag) :
    flag (passNZ v p).2 g =
      if g = .n then v.msb else if g = .z then v == 0 else flag p g := flag_setNZ p v g

/-- The flags a comparison writes, and the others kept. -/
theorem flag_compareFlags (r m p : Byte) (g : Flag) :
    flag (compareFlags r m p) g =
      if g = .n then (r - m).msb else if g = .z then r == m
      else if g = .c then decide (m.toNat ≤ r.toNat) else flag p g := by
  simp [compareFlags]

/-- The flags BIT writes, and the others kept. -/
theorem flag_bitTest (a m p : Byte) (g : Flag) :
    flag (bitTest a m p) g =
      if g = .v then m.getLsbD 6 else if g = .n then m.getLsbD 7
      else if g = .z then (a &&& m) == 0 else flag p g := by
  simp [bitTest]

theorem adc_fst (a m p : Byte) :
    (adc a m p).1 = BitVec.ofNat 8 (a.toNat + m.toNat + (flag p .c).toNat) := rfl

/-- The flags ADC writes, and the others kept. -/
theorem flag_adc (a m p : Byte) (g : Flag) :
    flag (adc a m p).2 g =
      if g = .n then (adc a m p).1.msb else if g = .z then (adc a m p).1 == 0
      else if g = .v then
        ((a ^^^ (adc a m p).1) &&& (m ^^^ (adc a m p).1) &&& 0x80) != 0
      else if g = .c then decide (255 < a.toNat + m.toNat + (flag p .c).toNat)
      else flag p g := by
  simp [adc]

theorem and_0x80_ne_zero (x : Byte) : ((x &&& 0x80) != 0) = x.getLsbD 7 := by
  revert x
  decide +kernel

/-- The overflow bit of an addition: the exact signed sum lies outside the byte's signed range
(R159). -/
theorem adc_overflow (a m : Byte) (c : Bool) :
    (((a ^^^ BitVec.ofNat 8 (a.toNat + m.toNat + c.toNat)) &&&
      (m ^^^ BitVec.ofNat 8 (a.toNat + m.toNat + c.toNat)) &&& 0x80) != 0) =
    decide (a.toInt + m.toInt + (c.toNat : Int) < -128 ∨
      127 < a.toInt + m.toInt + (c.toNat : Int)) := by
  have hc : c.toNat ≤ 1 := by cases c <;> decide
  have ha := a.isLt
  have hm := m.isLt
  rw [and_0x80_ne_zero, BitVec.getLsbD_and, BitVec.getLsbD_xor, BitVec.getLsbD_xor]
  simp only [← msb_eq_bit7, BitVec.msb_eq_decide,
    BitVec.toInt_eq_toNat_cond, BitVec.toNat_ofNat]
  rw [Bool.eq_iff_iff]
  simp only [Bool.and_eq_true, bne_iff_ne, ne_eq, decide_eq_decide, decide_eq_true_eq,
    ← Bool.bne_eq_xor]
  split_ifs <;> omega

/-- The complement SBC adds, as a number without and with sign (R162). -/
theorem toNat_complement (m : Byte) : (m ^^^ 0xFF).toNat = 255 - m.toNat := by
  revert m
  decide +kernel

theorem toInt_complement (m : Byte) : (m ^^^ 0xFF).toInt = -1 - m.toInt := by
  revert m
  decide +kernel

end Sys2Proof.Machine
end

