-- ==== Sys2Proof/Laws/Memory.lean ====
section
/-! SUPPORT. The laws of a buffer's list of cells: read after write, and that every operation keeps
the canonical form, in which equal contents are equal lists. -/

namespace Sys2Proof.Machine

@[simp] theorem Memory.byte?_nil (i : Nat) : Memory.byte? [] i = none := rfl

theorem Memory.byte?_cons (k : Nat) (w : Byte) (m : Memory) (i : Nat) :
    Memory.byte? ((k, w) :: m) i = if k = i then some w else Memory.byte? m i := rfl

theorem Memory.put_cons (k : Nat) (w : Byte) (m : Memory) (i : Nat) (v : Byte) :
    Memory.put ((k, w) :: m) i v =
      if i < k then (i, v) :: (k, w) :: m else if i = k then (i, v) :: m
      else (k, w) :: Memory.put m i v := rfl

@[simp] theorem Memory.byte?_put_same (m : Memory) (i : Nat) (v : Byte) :
    (m.put i v).byte? i = some v := by
  induction m with
  | nil => simp [Memory.put, Memory.byte?_cons]
  | cons c m ih =>
    obtain ⟨k, w⟩ := c
    rw [Memory.put_cons]
    split_ifs with h1 h2
    · simp [Memory.byte?_cons]
    · simp [Memory.byte?_cons]
    · rw [Memory.byte?_cons, if_neg (fun h => h2 h.symm)]
      exact ih

theorem Memory.byte?_put_other (m : Memory) {i j : Nat} (v : Byte) (h : j ≠ i) :
    (m.put i v).byte? j = m.byte? j := by
  induction m with
  | nil => simp [Memory.put, Memory.byte?_cons, Ne.symm h]
  | cons c m ih =>
    obtain ⟨k, w⟩ := c
    rw [Memory.put_cons]
    split_ifs with h1 h2
    · rw [Memory.byte?_cons, if_neg (Ne.symm h)]
    · subst h2
      simp only [Memory.byte?_cons, if_neg (Ne.symm h)]
    · simp only [Memory.byte?_cons, ih]

theorem Memory.byte?_put (m : Memory) (i j : Nat) (v : Byte) :
    (m.put i v).byte? j = if j = i then some v else m.byte? j := by
  split_ifs with h
  · subst h
    exact Memory.byte?_put_same m j v
  · exact Memory.byte?_put_other m v h

/-! ## The canonical form -/

theorem Memory.wfFrom_cons (size lo k : Nat) (w : Byte) (m : Memory) :
    Memory.wfFrom size lo ((k, w) :: m) = true ↔
      lo ≤ k ∧ k < size ∧ Memory.wfFrom size (k + 1) m = true := by
  simp [Memory.wfFrom, and_assoc]

theorem Memory.wfFrom_mono {size lo lo' : Nat} {m : Memory} (h : Memory.wfFrom size lo m = true)
    (hl : lo' ≤ lo) : Memory.wfFrom size lo' m = true := by
  cases m with
  | nil => rfl
  | cons c m =>
    obtain ⟨k, w⟩ := c
    rw [Memory.wfFrom_cons] at h ⊢
    exact ⟨hl.trans h.1, h.2⟩

theorem Memory.wfFrom_put {size lo i : Nat} {m : Memory} (v : Byte)
    (h : Memory.wfFrom size lo m = true) (hl : lo ≤ i) (hi : i < size) :
    Memory.wfFrom size lo (m.put i v) = true := by
  induction m generalizing lo with
  | nil => simp [Memory.put, Memory.wfFrom, hl, hi]
  | cons c m ih =>
    obtain ⟨k, w⟩ := c
    obtain ⟨h1, h2, h3⟩ := (Memory.wfFrom_cons ..).1 h
    rw [Memory.put_cons]
    split_ifs with hlt heq
    · rw [Memory.wfFrom_cons, Memory.wfFrom_cons]
      exact ⟨hl, hi, by omega, h2, h3⟩
    · subst heq
      rw [Memory.wfFrom_cons]
      exact ⟨hl, hi, h3⟩
    · rw [Memory.wfFrom_cons]
      exact ⟨h1, h2, ih h3 (by omega)⟩

/-- Writing a cell inside the buffer keeps the canonical form. -/
theorem Memory.wf_put {size i : Nat} {m : Memory} (v : Byte) (h : Memory.wf size m = true)
    (hi : i < size) : Memory.wf size (m.put i v) = true :=
  Memory.wfFrom_put v h (Nat.zero_le i) hi

/-- Taking a cell out keeps the canonical form. -/
theorem Memory.wfFrom_erase {size lo i : Nat} {m : Memory} (h : Memory.wfFrom size lo m = true) :
    Memory.wfFrom size lo (m.erase i) = true := by
  induction m generalizing lo with
  | nil => rfl
  | cons c m ih =>
    obtain ⟨k, w⟩ := c
    obtain ⟨h1, h2, h3⟩ := (Memory.wfFrom_cons ..).1 h
    rw [Memory.erase]
    split_ifs
    · exact Memory.wfFrom_mono h3 (by omega)
    · exact (Memory.wfFrom_cons ..).2 ⟨h1, h2, ih h3⟩

theorem Memory.mem_put {m : Memory} {i : Nat} {v : Byte} {c : Host.Cell} (h : c ∈ m.put i v) :
    c = (i, v) ∨ c ∈ m := by
  induction m with
  | nil => simpa [Memory.put] using h
  | cons d m ih =>
    obtain ⟨k, w⟩ := d
    rw [Memory.put_cons] at h
    split_ifs at h
    · simpa using h
    · rcases List.mem_cons.1 h with h | h
      · exact .inl h
      · exact .inr (List.mem_cons_of_mem _ h)
    · rcases List.mem_cons.1 h with h | h
      · exact .inr (h ▸ List.mem_cons_self)
      · exact (ih h).imp_right (List.mem_cons_of_mem _)

theorem Memory.mem_erase {m : Memory} {i : Nat} {c : Host.Cell} (h : c ∈ m.erase i) : c ∈ m := by
  induction m with
  | nil => exact h
  | cons d m ih =>
    obtain ⟨k, w⟩ := d
    rw [Memory.erase] at h
    split_ifs at h
    · exact List.mem_cons_of_mem _ h
    · rcases List.mem_cons.1 h with h | h
      · exact h ▸ List.mem_cons_self
      · exact List.mem_cons_of_mem _ (ih h)

/-- Loading a byte into a buffer whose unlisted cells read as `fill` keeps its canonical form. -/
theorem Memory.wfOver_putOver {fill : Byte} {size i : Nat} {m : Memory} (v : Byte)
    (h : Memory.wfOver fill size m = true) (hi : i < size) :
    Memory.wfOver fill size (Memory.putOver fill m i v) = true := by
  simp only [Memory.wfOver, Bool.and_eq_true, List.all_eq_true, bne_iff_ne, ne_eq] at h ⊢
  rw [Memory.putOver]
  split_ifs with hv
  · exact ⟨Memory.wfFrom_erase h.1, fun c hc => h.2 c (Memory.mem_erase hc)⟩
  · refine ⟨Memory.wf_put v h.1 hi, fun c hc => ?_⟩
    rcases Memory.mem_put hc with rfl | hc
    · exact hv
    · exact h.2 c hc

theorem Memory.byte?_below {size lo i : Nat} {m : Memory} (h : Memory.wfFrom size lo m = true)
    (hi : i < lo) : m.byte? i = none := by
  induction m generalizing lo with
  | nil => rfl
  | cons c m ih =>
    obtain ⟨k, w⟩ := c
    obtain ⟨h1, -, h3⟩ := (Memory.wfFrom_cons ..).1 h
    rw [Memory.byte?_cons, if_neg (by omega)]
    exact ih h3 (by omega)

/-- In canonical form, two lists that list the same bytes are the same list. -/
theorem Memory.ext_of_wf {size : Nat} {m m' : Memory} (h : Memory.wf size m = true)
    (h' : Memory.wf size m' = true) (heq : ∀ i, m.byte? i = m'.byte? i) : m = m' := by
  have key : ∀ (m m' : Memory) (lo : Nat), Memory.wfFrom size lo m = true →
      Memory.wfFrom size lo m' = true → (∀ i, m.byte? i = m'.byte? i) → m = m' := by
    intro m
    induction m with
    | nil =>
      intro m' lo _ _ heq
      cases m' with
      | nil => rfl
      | cons c m' =>
        obtain ⟨k, w⟩ := c
        have := heq k
        simp [Memory.byte?] at this
    | cons c m ih =>
      intro m' lo hm hm' heq
      obtain ⟨k, w⟩ := c
      obtain ⟨-, -, hm3⟩ := (Memory.wfFrom_cons ..).1 hm
      cases m' with
      | nil =>
        have := heq k
        simp [Memory.byte?] at this
      | cons c' m' =>
        obtain ⟨k', w'⟩ := c'
        obtain ⟨-, -, hm3'⟩ := (Memory.wfFrom_cons ..).1 hm'
        have hk : k = k' := by
          rcases Nat.lt_trichotomy k k' with hlt | rfl | hlt
          · have := heq k
            rw [Memory.byte?_cons, if_pos rfl, Memory.byte?_cons, if_neg (by omega),
              Memory.byte?_below hm3' (by omega)] at this
            cases this
          · rfl
          · have := heq k'
            rw [Memory.byte?_cons, if_neg (by omega), Memory.byte?_below hm3 (by omega),
              Memory.byte?_cons, if_pos rfl] at this
            cases this
        subst hk
        have hw : w = w' := by simpa [Memory.byte?_cons] using heq k
        subst hw
        rw [ih m' (k + 1) hm3 hm3' fun i => ?_]
        rcases eq_or_ne k i with rfl | hne
        · rw [Memory.byte?_below hm3 (by omega), Memory.byte?_below hm3' (by omega)]
        · simpa [Memory.byte?_cons, hne] using heq i
  exact key m m' 0 h h' heq

end Sys2Proof.Machine
end

