-- ==== Sys2Proof/Laws/State.lean ====
section
/-! SUPPORT. One lemma for each field of each update of the state. -/

namespace Sys2Proof.Machine

variable (s : State)

@[simp] theorem State.setA_a (v : Byte) : (s.setA v).a = v := rfl
@[simp] theorem State.setA_x (v : Byte) : (s.setA v).x = s.x := rfl
@[simp] theorem State.setA_y (v : Byte) : (s.setA v).y = s.y := rfl
@[simp] theorem State.setA_sp (v : Byte) : (s.setA v).sp = s.sp := rfl
@[simp] theorem State.setA_p (v : Byte) : (s.setA v).p = s.p := rfl
@[simp] theorem State.setA_pc (v : Byte) : (s.setA v).pc = s.pc := rfl
@[simp] theorem State.setA_wram (v : Byte) : (s.setA v).wram = s.wram := rfl
@[simp] theorem State.setA_sram (v : Byte) : (s.setA v).sram = s.sram := rfl
@[simp] theorem State.setA_latch (v : Byte) : (s.setA v).latch = s.latch := rfl
@[simp] theorem State.setA_cpuCycles (v : Byte) : (s.setA v).cpuCycles = s.cpuCycles := rfl
@[simp] theorem State.setA_ppuCycles (v : Byte) : (s.setA v).ppuCycles = s.ppuCycles := rfl
@[simp] theorem State.setA_ppu (v : Byte) : (s.setA v).ppu = s.ppu := rfl
@[simp] theorem State.setA_halted (v : Byte) : (s.setA v).halted = s.halted := rfl
@[simp] theorem State.setA_cfg (v : Byte) : (s.setA v).cfg = s.cfg := rfl

@[simp] theorem State.setX_a (v : Byte) : (s.setX v).a = s.a := rfl
@[simp] theorem State.setX_x (v : Byte) : (s.setX v).x = v := rfl
@[simp] theorem State.setX_y (v : Byte) : (s.setX v).y = s.y := rfl
@[simp] theorem State.setX_sp (v : Byte) : (s.setX v).sp = s.sp := rfl
@[simp] theorem State.setX_p (v : Byte) : (s.setX v).p = s.p := rfl
@[simp] theorem State.setX_pc (v : Byte) : (s.setX v).pc = s.pc := rfl
@[simp] theorem State.setX_wram (v : Byte) : (s.setX v).wram = s.wram := rfl
@[simp] theorem State.setX_sram (v : Byte) : (s.setX v).sram = s.sram := rfl
@[simp] theorem State.setX_latch (v : Byte) : (s.setX v).latch = s.latch := rfl
@[simp] theorem State.setX_cpuCycles (v : Byte) : (s.setX v).cpuCycles = s.cpuCycles := rfl
@[simp] theorem State.setX_ppuCycles (v : Byte) : (s.setX v).ppuCycles = s.ppuCycles := rfl
@[simp] theorem State.setX_ppu (v : Byte) : (s.setX v).ppu = s.ppu := rfl
@[simp] theorem State.setX_halted (v : Byte) : (s.setX v).halted = s.halted := rfl
@[simp] theorem State.setX_cfg (v : Byte) : (s.setX v).cfg = s.cfg := rfl

@[simp] theorem State.setY_a (v : Byte) : (s.setY v).a = s.a := rfl
@[simp] theorem State.setY_x (v : Byte) : (s.setY v).x = s.x := rfl
@[simp] theorem State.setY_y (v : Byte) : (s.setY v).y = v := rfl
@[simp] theorem State.setY_sp (v : Byte) : (s.setY v).sp = s.sp := rfl
@[simp] theorem State.setY_p (v : Byte) : (s.setY v).p = s.p := rfl
@[simp] theorem State.setY_pc (v : Byte) : (s.setY v).pc = s.pc := rfl
@[simp] theorem State.setY_wram (v : Byte) : (s.setY v).wram = s.wram := rfl
@[simp] theorem State.setY_sram (v : Byte) : (s.setY v).sram = s.sram := rfl
@[simp] theorem State.setY_latch (v : Byte) : (s.setY v).latch = s.latch := rfl
@[simp] theorem State.setY_cpuCycles (v : Byte) : (s.setY v).cpuCycles = s.cpuCycles := rfl
@[simp] theorem State.setY_ppuCycles (v : Byte) : (s.setY v).ppuCycles = s.ppuCycles := rfl
@[simp] theorem State.setY_ppu (v : Byte) : (s.setY v).ppu = s.ppu := rfl
@[simp] theorem State.setY_halted (v : Byte) : (s.setY v).halted = s.halted := rfl
@[simp] theorem State.setY_cfg (v : Byte) : (s.setY v).cfg = s.cfg := rfl

@[simp] theorem State.setSp_a (v : Byte) : (s.setSp v).a = s.a := rfl
@[simp] theorem State.setSp_x (v : Byte) : (s.setSp v).x = s.x := rfl
@[simp] theorem State.setSp_y (v : Byte) : (s.setSp v).y = s.y := rfl
@[simp] theorem State.setSp_sp (v : Byte) : (s.setSp v).sp = v := rfl
@[simp] theorem State.setSp_p (v : Byte) : (s.setSp v).p = s.p := rfl
@[simp] theorem State.setSp_pc (v : Byte) : (s.setSp v).pc = s.pc := rfl
@[simp] theorem State.setSp_wram (v : Byte) : (s.setSp v).wram = s.wram := rfl
@[simp] theorem State.setSp_sram (v : Byte) : (s.setSp v).sram = s.sram := rfl
@[simp] theorem State.setSp_latch (v : Byte) : (s.setSp v).latch = s.latch := rfl
@[simp] theorem State.setSp_cpuCycles (v : Byte) : (s.setSp v).cpuCycles = s.cpuCycles := rfl
@[simp] theorem State.setSp_ppuCycles (v : Byte) : (s.setSp v).ppuCycles = s.ppuCycles := rfl
@[simp] theorem State.setSp_ppu (v : Byte) : (s.setSp v).ppu = s.ppu := rfl
@[simp] theorem State.setSp_halted (v : Byte) : (s.setSp v).halted = s.halted := rfl
@[simp] theorem State.setSp_cfg (v : Byte) : (s.setSp v).cfg = s.cfg := rfl

@[simp] theorem State.setP_a (v : Byte) : (s.setP v).a = s.a := rfl
@[simp] theorem State.setP_x (v : Byte) : (s.setP v).x = s.x := rfl
@[simp] theorem State.setP_y (v : Byte) : (s.setP v).y = s.y := rfl
@[simp] theorem State.setP_sp (v : Byte) : (s.setP v).sp = s.sp := rfl
@[simp] theorem State.setP_p (v : Byte) : (s.setP v).p = v := rfl
@[simp] theorem State.setP_pc (v : Byte) : (s.setP v).pc = s.pc := rfl
@[simp] theorem State.setP_wram (v : Byte) : (s.setP v).wram = s.wram := rfl
@[simp] theorem State.setP_sram (v : Byte) : (s.setP v).sram = s.sram := rfl
@[simp] theorem State.setP_latch (v : Byte) : (s.setP v).latch = s.latch := rfl
@[simp] theorem State.setP_cpuCycles (v : Byte) : (s.setP v).cpuCycles = s.cpuCycles := rfl
@[simp] theorem State.setP_ppuCycles (v : Byte) : (s.setP v).ppuCycles = s.ppuCycles := rfl
@[simp] theorem State.setP_ppu (v : Byte) : (s.setP v).ppu = s.ppu := rfl
@[simp] theorem State.setP_halted (v : Byte) : (s.setP v).halted = s.halted := rfl
@[simp] theorem State.setP_cfg (v : Byte) : (s.setP v).cfg = s.cfg := rfl

@[simp] theorem State.setPc_a (v : Addr) : (s.setPc v).a = s.a := rfl
@[simp] theorem State.setPc_x (v : Addr) : (s.setPc v).x = s.x := rfl
@[simp] theorem State.setPc_y (v : Addr) : (s.setPc v).y = s.y := rfl
@[simp] theorem State.setPc_sp (v : Addr) : (s.setPc v).sp = s.sp := rfl
@[simp] theorem State.setPc_p (v : Addr) : (s.setPc v).p = s.p := rfl
@[simp] theorem State.setPc_pc (v : Addr) : (s.setPc v).pc = v := rfl
@[simp] theorem State.setPc_wram (v : Addr) : (s.setPc v).wram = s.wram := rfl
@[simp] theorem State.setPc_sram (v : Addr) : (s.setPc v).sram = s.sram := rfl
@[simp] theorem State.setPc_latch (v : Addr) : (s.setPc v).latch = s.latch := rfl
@[simp] theorem State.setPc_cpuCycles (v : Addr) : (s.setPc v).cpuCycles = s.cpuCycles := rfl
@[simp] theorem State.setPc_ppuCycles (v : Addr) : (s.setPc v).ppuCycles = s.ppuCycles := rfl
@[simp] theorem State.setPc_ppu (v : Addr) : (s.setPc v).ppu = s.ppu := rfl
@[simp] theorem State.setPc_halted (v : Addr) : (s.setPc v).halted = s.halted := rfl
@[simp] theorem State.setPc_cfg (v : Addr) : (s.setPc v).cfg = s.cfg := rfl

@[simp] theorem State.setLatch_a (v : Byte) : (s.setLatch v).a = s.a := rfl
@[simp] theorem State.setLatch_x (v : Byte) : (s.setLatch v).x = s.x := rfl
@[simp] theorem State.setLatch_y (v : Byte) : (s.setLatch v).y = s.y := rfl
@[simp] theorem State.setLatch_sp (v : Byte) : (s.setLatch v).sp = s.sp := rfl
@[simp] theorem State.setLatch_p (v : Byte) : (s.setLatch v).p = s.p := rfl
@[simp] theorem State.setLatch_pc (v : Byte) : (s.setLatch v).pc = s.pc := rfl
@[simp] theorem State.setLatch_wram (v : Byte) : (s.setLatch v).wram = s.wram := rfl
@[simp] theorem State.setLatch_sram (v : Byte) : (s.setLatch v).sram = s.sram := rfl
@[simp] theorem State.setLatch_latch (v : Byte) : (s.setLatch v).latch = v := rfl
@[simp] theorem State.setLatch_cpuCycles (v : Byte) : (s.setLatch v).cpuCycles = s.cpuCycles := rfl
@[simp] theorem State.setLatch_ppuCycles (v : Byte) : (s.setLatch v).ppuCycles = s.ppuCycles := rfl
@[simp] theorem State.setLatch_ppu (v : Byte) : (s.setLatch v).ppu = s.ppu := rfl
@[simp] theorem State.setLatch_halted (v : Byte) : (s.setLatch v).halted = s.halted := rfl
@[simp] theorem State.setLatch_cfg (v : Byte) : (s.setLatch v).cfg = s.cfg := rfl

@[simp] theorem State.advance_a (n : Nat) : (s.advance n).a = s.a := rfl
@[simp] theorem State.advance_x (n : Nat) : (s.advance n).x = s.x := rfl
@[simp] theorem State.advance_y (n : Nat) : (s.advance n).y = s.y := rfl
@[simp] theorem State.advance_sp (n : Nat) : (s.advance n).sp = s.sp := rfl
@[simp] theorem State.advance_p (n : Nat) : (s.advance n).p = s.p := rfl
@[simp] theorem State.advance_pc (n : Nat) : (s.advance n).pc = s.pc + BitVec.ofNat 16 n := rfl
@[simp] theorem State.advance_wram (n : Nat) : (s.advance n).wram = s.wram := rfl
@[simp] theorem State.advance_sram (n : Nat) : (s.advance n).sram = s.sram := rfl
@[simp] theorem State.advance_latch (n : Nat) : (s.advance n).latch = s.latch := rfl
@[simp] theorem State.advance_cpuCycles (n : Nat) : (s.advance n).cpuCycles = s.cpuCycles := rfl
@[simp] theorem State.advance_ppuCycles (n : Nat) : (s.advance n).ppuCycles = s.ppuCycles := rfl
@[simp] theorem State.advance_ppu (n : Nat) : (s.advance n).ppu = s.ppu := rfl
@[simp] theorem State.advance_halted (n : Nat) : (s.advance n).halted = s.halted := rfl
@[simp] theorem State.advance_cfg (n : Nat) : (s.advance n).cfg = s.cfg := rfl

@[simp] theorem State.tick_a (n : Nat) : (s.tick n).a = s.a := rfl
@[simp] theorem State.tick_x (n : Nat) : (s.tick n).x = s.x := rfl
@[simp] theorem State.tick_y (n : Nat) : (s.tick n).y = s.y := rfl
@[simp] theorem State.tick_sp (n : Nat) : (s.tick n).sp = s.sp := rfl
@[simp] theorem State.tick_p (n : Nat) : (s.tick n).p = s.p := rfl
@[simp] theorem State.tick_pc (n : Nat) : (s.tick n).pc = s.pc := rfl
@[simp] theorem State.tick_wram (n : Nat) : (s.tick n).wram = s.wram := rfl
@[simp] theorem State.tick_sram (n : Nat) : (s.tick n).sram = s.sram := rfl
@[simp] theorem State.tick_latch (n : Nat) : (s.tick n).latch = s.latch := rfl
@[simp] theorem State.tick_cpuCycles (n : Nat) : (s.tick n).cpuCycles = s.cpuCycles + n := rfl
@[simp] theorem State.tick_ppuCycles (n : Nat) : (s.tick n).ppuCycles = s.ppuCycles := rfl
@[simp] theorem State.tick_ppu (n : Nat) : (s.tick n).ppu = s.ppu := rfl
@[simp] theorem State.tick_halted (n : Nat) : (s.tick n).halted = s.halted := rfl
@[simp] theorem State.tick_cfg (n : Nat) : (s.tick n).cfg = s.cfg := rfl

@[simp] theorem State.setPpu_a (q : PpuState) (t : Nat) : (s.setPpu q t).a = s.a := rfl
@[simp] theorem State.setPpu_x (q : PpuState) (t : Nat) : (s.setPpu q t).x = s.x := rfl
@[simp] theorem State.setPpu_y (q : PpuState) (t : Nat) : (s.setPpu q t).y = s.y := rfl
@[simp] theorem State.setPpu_sp (q : PpuState) (t : Nat) : (s.setPpu q t).sp = s.sp := rfl
@[simp] theorem State.setPpu_p (q : PpuState) (t : Nat) : (s.setPpu q t).p = s.p := rfl
@[simp] theorem State.setPpu_pc (q : PpuState) (t : Nat) : (s.setPpu q t).pc = s.pc := rfl
@[simp] theorem State.setPpu_wram (q : PpuState) (t : Nat) : (s.setPpu q t).wram = s.wram := rfl
@[simp] theorem State.setPpu_sram (q : PpuState) (t : Nat) : (s.setPpu q t).sram = s.sram := rfl
@[simp] theorem State.setPpu_latch (q : PpuState) (t : Nat) : (s.setPpu q t).latch = s.latch := rfl
@[simp] theorem State.setPpu_cpuCycles (q : PpuState) (t : Nat) :
    (s.setPpu q t).cpuCycles = s.cpuCycles := rfl
@[simp] theorem State.setPpu_ppuCycles (q : PpuState) (t : Nat) :
    (s.setPpu q t).ppuCycles = t := rfl
@[simp] theorem State.setPpu_ppu (q : PpuState) (t : Nat) : (s.setPpu q t).ppu = q := rfl
@[simp] theorem State.setPpu_halted (q : PpuState) (t : Nat) :
    (s.setPpu q t).halted = s.halted := rfl
@[simp] theorem State.setPpu_cfg (q : PpuState) (t : Nat) : (s.setPpu q t).cfg = s.cfg := rfl

@[simp] theorem State.halt_a (op : Byte) : (s.halt op).a = s.a := rfl
@[simp] theorem State.halt_x (op : Byte) : (s.halt op).x = s.x := rfl
@[simp] theorem State.halt_y (op : Byte) : (s.halt op).y = s.y := rfl
@[simp] theorem State.halt_sp (op : Byte) : (s.halt op).sp = s.sp := rfl
@[simp] theorem State.halt_p (op : Byte) : (s.halt op).p = s.p := rfl
@[simp] theorem State.halt_pc (op : Byte) : (s.halt op).pc = s.pc := rfl
@[simp] theorem State.halt_wram (op : Byte) : (s.halt op).wram = s.wram := rfl
@[simp] theorem State.halt_sram (op : Byte) : (s.halt op).sram = s.sram := rfl
@[simp] theorem State.halt_latch (op : Byte) : (s.halt op).latch = s.latch := rfl
@[simp] theorem State.halt_cpuCycles (op : Byte) : (s.halt op).cpuCycles = s.cpuCycles := rfl
@[simp] theorem State.halt_ppuCycles (op : Byte) : (s.halt op).ppuCycles = s.ppuCycles := rfl
@[simp] theorem State.halt_ppu (op : Byte) : (s.halt op).ppu = s.ppu := rfl
@[simp] theorem State.halt_halted (op : Byte) : (s.halt op).halted = some (s.pc, op) := rfl
@[simp] theorem State.halt_cfg (op : Byte) : (s.halt op).cfg = s.cfg := rfl

@[simp] theorem State.withA_a (r : Byte × Byte) : (s.withA r).a = r.1 := rfl
@[simp] theorem State.withA_x (r : Byte × Byte) : (s.withA r).x = s.x := rfl
@[simp] theorem State.withA_y (r : Byte × Byte) : (s.withA r).y = s.y := rfl
@[simp] theorem State.withA_sp (r : Byte × Byte) : (s.withA r).sp = s.sp := rfl
@[simp] theorem State.withA_p (r : Byte × Byte) : (s.withA r).p = r.2 := rfl
@[simp] theorem State.withA_pc (r : Byte × Byte) : (s.withA r).pc = s.pc := rfl
@[simp] theorem State.withA_wram (r : Byte × Byte) : (s.withA r).wram = s.wram := rfl
@[simp] theorem State.withA_sram (r : Byte × Byte) : (s.withA r).sram = s.sram := rfl
@[simp] theorem State.withA_latch (r : Byte × Byte) : (s.withA r).latch = s.latch := rfl
@[simp] theorem State.withA_cpuCycles (r : Byte × Byte) :
    (s.withA r).cpuCycles = s.cpuCycles := rfl
@[simp] theorem State.withA_ppuCycles (r : Byte × Byte) :
    (s.withA r).ppuCycles = s.ppuCycles := rfl
@[simp] theorem State.withA_ppu (r : Byte × Byte) : (s.withA r).ppu = s.ppu := rfl
@[simp] theorem State.withA_halted (r : Byte × Byte) : (s.withA r).halted = s.halted := rfl
@[simp] theorem State.withA_cfg (r : Byte × Byte) : (s.withA r).cfg = s.cfg := rfl

@[simp] theorem State.withX_a (r : Byte × Byte) : (s.withX r).a = s.a := rfl
@[simp] theorem State.withX_x (r : Byte × Byte) : (s.withX r).x = r.1 := rfl
@[simp] theorem State.withX_y (r : Byte × Byte) : (s.withX r).y = s.y := rfl
@[simp] theorem State.withX_sp (r : Byte × Byte) : (s.withX r).sp = s.sp := rfl
@[simp] theorem State.withX_p (r : Byte × Byte) : (s.withX r).p = r.2 := rfl
@[simp] theorem State.withX_pc (r : Byte × Byte) : (s.withX r).pc = s.pc := rfl
@[simp] theorem State.withX_wram (r : Byte × Byte) : (s.withX r).wram = s.wram := rfl
@[simp] theorem State.withX_sram (r : Byte × Byte) : (s.withX r).sram = s.sram := rfl
@[simp] theorem State.withX_latch (r : Byte × Byte) : (s.withX r).latch = s.latch := rfl
@[simp] theorem State.withX_cpuCycles (r : Byte × Byte) :
    (s.withX r).cpuCycles = s.cpuCycles := rfl
@[simp] theorem State.withX_ppuCycles (r : Byte × Byte) :
    (s.withX r).ppuCycles = s.ppuCycles := rfl
@[simp] theorem State.withX_ppu (r : Byte × Byte) : (s.withX r).ppu = s.ppu := rfl
@[simp] theorem State.withX_halted (r : Byte × Byte) : (s.withX r).halted = s.halted := rfl
@[simp] theorem State.withX_cfg (r : Byte × Byte) : (s.withX r).cfg = s.cfg := rfl

@[simp] theorem State.withY_a (r : Byte × Byte) : (s.withY r).a = s.a := rfl
@[simp] theorem State.withY_x (r : Byte × Byte) : (s.withY r).x = s.x := rfl
@[simp] theorem State.withY_y (r : Byte × Byte) : (s.withY r).y = r.1 := rfl
@[simp] theorem State.withY_sp (r : Byte × Byte) : (s.withY r).sp = s.sp := rfl
@[simp] theorem State.withY_p (r : Byte × Byte) : (s.withY r).p = r.2 := rfl
@[simp] theorem State.withY_pc (r : Byte × Byte) : (s.withY r).pc = s.pc := rfl
@[simp] theorem State.withY_wram (r : Byte × Byte) : (s.withY r).wram = s.wram := rfl
@[simp] theorem State.withY_sram (r : Byte × Byte) : (s.withY r).sram = s.sram := rfl
@[simp] theorem State.withY_latch (r : Byte × Byte) : (s.withY r).latch = s.latch := rfl
@[simp] theorem State.withY_cpuCycles (r : Byte × Byte) :
    (s.withY r).cpuCycles = s.cpuCycles := rfl
@[simp] theorem State.withY_ppuCycles (r : Byte × Byte) :
    (s.withY r).ppuCycles = s.ppuCycles := rfl
@[simp] theorem State.withY_ppu (r : Byte × Byte) : (s.withY r).ppu = s.ppu := rfl
@[simp] theorem State.withY_halted (r : Byte × Byte) : (s.withY r).halted = s.halted := rfl
@[simp] theorem State.withY_cfg (r : Byte × Byte) : (s.withY r).cfg = s.cfg := rfl

@[simp] theorem State.store_a (b : Buffer) (i : Nat) (v : Byte) :
    (s.store b i v).a = s.a := by cases b <;> rfl
@[simp] theorem State.store_x (b : Buffer) (i : Nat) (v : Byte) :
    (s.store b i v).x = s.x := by cases b <;> rfl
@[simp] theorem State.store_y (b : Buffer) (i : Nat) (v : Byte) :
    (s.store b i v).y = s.y := by cases b <;> rfl
@[simp] theorem State.store_sp (b : Buffer) (i : Nat) (v : Byte) :
    (s.store b i v).sp = s.sp := by cases b <;> rfl
@[simp] theorem State.store_p (b : Buffer) (i : Nat) (v : Byte) :
    (s.store b i v).p = s.p := by cases b <;> rfl
@[simp] theorem State.store_pc (b : Buffer) (i : Nat) (v : Byte) :
    (s.store b i v).pc = s.pc := by cases b <;> rfl
@[simp] theorem State.store_latch (b : Buffer) (i : Nat) (v : Byte) :
    (s.store b i v).latch = s.latch := by cases b <;> rfl
@[simp] theorem State.store_cpuCycles (b : Buffer) (i : Nat) (v : Byte) :
    (s.store b i v).cpuCycles = s.cpuCycles := by cases b <;> rfl
@[simp] theorem State.store_ppuCycles (b : Buffer) (i : Nat) (v : Byte) :
    (s.store b i v).ppuCycles = s.ppuCycles := by cases b <;> rfl
@[simp] theorem State.store_ppu (b : Buffer) (i : Nat) (v : Byte) :
    (s.store b i v).ppu = s.ppu := by cases b <;> rfl
@[simp] theorem State.store_halted (b : Buffer) (i : Nat) (v : Byte) :
    (s.store b i v).halted = s.halted := by cases b <;> rfl
@[simp] theorem State.store_cfg (b : Buffer) (i : Nat) (v : Byte) :
    (s.store b i v).cfg = s.cfg := by cases b <;> rfl

end Sys2Proof.Machine
end

