-- ==== Sys2Proof/Laws/Bus.lean ====
section
/-! SUPPORT. What one bus access, one stack access and the trap operations can do: the fields they
leave alone, the byte they read, the cell they write. Provers cite these and unfold nothing. -/

namespace Sys2Proof.Machine

variable (s : State)

/-! ## Frames -/

theorem State.catchUp_cases :
    (s.ppuCycles < s.cpuCycles * s.cfg.ppuPerCpu ∧
      s.catchUp = s.setPpu (ppuCatchUp s.ppu (s.cpuCycles * s.cfg.ppuPerCpu))
        (s.cpuCycles * s.cfg.ppuPerCpu)) ∨
    (s.cpuCycles * s.cfg.ppuPerCpu ≤ s.ppuCycles ∧ s.catchUp = s) := by
  by_cases h : s.ppuCycles < s.cpuCycles * s.cfg.ppuPerCpu
  · exact .inl ⟨h, by rw [State.catchUp, if_pos h]⟩
  · exact .inr ⟨Nat.le_of_not_lt h, by rw [State.catchUp, if_neg h]⟩

@[simp] theorem State.catchUp_a :
    (s.catchUp).a = s.a := by
  rcases s.catchUp_cases with ⟨-, h⟩ | ⟨-, h⟩ <;> simp [h]
@[simp] theorem State.catchUp_x :
    (s.catchUp).x = s.x := by
  rcases s.catchUp_cases with ⟨-, h⟩ | ⟨-, h⟩ <;> simp [h]
@[simp] theorem State.catchUp_y :
    (s.catchUp).y = s.y := by
  rcases s.catchUp_cases with ⟨-, h⟩ | ⟨-, h⟩ <;> simp [h]
@[simp] theorem State.catchUp_sp :
    (s.catchUp).sp = s.sp := by
  rcases s.catchUp_cases with ⟨-, h⟩ | ⟨-, h⟩ <;> simp [h]
@[simp] theorem State.catchUp_p :
    (s.catchUp).p = s.p := by
  rcases s.catchUp_cases with ⟨-, h⟩ | ⟨-, h⟩ <;> simp [h]
@[simp] theorem State.catchUp_pc :
    (s.catchUp).pc = s.pc := by
  rcases s.catchUp_cases with ⟨-, h⟩ | ⟨-, h⟩ <;> simp [h]
@[simp] theorem State.catchUp_wram :
    (s.catchUp).wram = s.wram := by
  rcases s.catchUp_cases with ⟨-, h⟩ | ⟨-, h⟩ <;> simp [h]
@[simp] theorem State.catchUp_sram :
    (s.catchUp).sram = s.sram := by
  rcases s.catchUp_cases with ⟨-, h⟩ | ⟨-, h⟩ <;> simp [h]
@[simp] theorem State.catchUp_latch :
    (s.catchUp).latch = s.latch := by
  rcases s.catchUp_cases with ⟨-, h⟩ | ⟨-, h⟩ <;> simp [h]
@[simp] theorem State.catchUp_cpuCycles :
    (s.catchUp).cpuCycles = s.cpuCycles := by
  rcases s.catchUp_cases with ⟨-, h⟩ | ⟨-, h⟩ <;> simp [h]
@[simp] theorem State.catchUp_halted :
    (s.catchUp).halted = s.halted := by
  rcases s.catchUp_cases with ⟨-, h⟩ | ⟨-, h⟩ <;> simp [h]
@[simp] theorem State.catchUp_cfg :
    (s.catchUp).cfg = s.cfg := by
  rcases s.catchUp_cases with ⟨-, h⟩ | ⟨-, h⟩ <;> simp [h]

/-- Everything a bus read can do. -/
theorem State.busRead_cases (a : Addr) :
    (∃ b i, translateAddr s.cfg a = .cell b i ∧ s.busRead a = (s.cell b i, s.setLatch (s.cell b i))) ∨
    (∃ r, translateAddr s.cfg a = .gfx r ∧
      s.busRead a = (Config.ppuRegValue s.cfg.chrBanks s.cfg.chr s.catchUp.ppu r,
        (s.catchUp.setPpu (.read r :: s.catchUp.ppu) s.catchUp.ppuCycles).setLatch
          (Config.ppuRegValue s.cfg.chrBanks s.cfg.chr s.catchUp.ppu r))) ∨
    (translateAddr s.cfg a = .openBus ∧ s.busRead a = (s.latch, s)) := by
  unfold State.busRead
  split
  · exact .inl ⟨_, _, by assumption, rfl⟩
  · exact .inr (.inl ⟨_, by assumption, rfl⟩)
  · exact .inr (.inr ⟨by assumption, rfl⟩)

/-- Everything a bus write can do. -/
theorem State.busWrite_cases (a : Addr) (v : Byte) :
    (∃ b i, translateAddr s.cfg a = .cell b i ∧ s.busWrite a v = (s.store b i v).setLatch v) ∨
    (∃ r, translateAddr s.cfg a = .gfx r ∧
      s.busWrite a v =
        (s.catchUp.setPpu (.write r v :: s.catchUp.ppu) s.catchUp.ppuCycles).setLatch v) ∨
    (translateAddr s.cfg a = .openBus ∧ s.busWrite a v = s.setLatch v) := by
  unfold State.busWrite
  split
  · exact .inl ⟨_, _, by assumption, rfl⟩
  · exact .inr (.inl ⟨_, by assumption, rfl⟩)
  · exact .inr (.inr ⟨by assumption, rfl⟩)

@[simp] theorem State.busRead_a (a : Addr) :
    ((s.busRead a).2).a = s.a := by
  rcases s.busRead_cases a with ⟨_, _, -, h⟩ | ⟨_, -, h⟩ | ⟨-, h⟩ <;> simp [h]
@[simp] theorem State.busRead_x (a : Addr) :
    ((s.busRead a).2).x = s.x := by
  rcases s.busRead_cases a with ⟨_, _, -, h⟩ | ⟨_, -, h⟩ | ⟨-, h⟩ <;> simp [h]
@[simp] theorem State.busRead_y (a : Addr) :
    ((s.busRead a).2).y = s.y := by
  rcases s.busRead_cases a with ⟨_, _, -, h⟩ | ⟨_, -, h⟩ | ⟨-, h⟩ <;> simp [h]
@[simp] theorem State.busRead_sp (a : Addr) :
    ((s.busRead a).2).sp = s.sp := by
  rcases s.busRead_cases a with ⟨_, _, -, h⟩ | ⟨_, -, h⟩ | ⟨-, h⟩ <;> simp [h]
@[simp] theorem State.busRead_p (a : Addr) :
    ((s.busRead a).2).p = s.p := by
  rcases s.busRead_cases a with ⟨_, _, -, h⟩ | ⟨_, -, h⟩ | ⟨-, h⟩ <;> simp [h]
@[simp] theorem State.busRead_pc (a : Addr) :
    ((s.busRead a).2).pc = s.pc := by
  rcases s.busRead_cases a with ⟨_, _, -, h⟩ | ⟨_, -, h⟩ | ⟨-, h⟩ <;> simp [h]
@[simp] theorem State.busRead_wram (a : Addr) :
    ((s.busRead a).2).wram = s.wram := by
  rcases s.busRead_cases a with ⟨_, _, -, h⟩ | ⟨_, -, h⟩ | ⟨-, h⟩ <;> simp [h]
@[simp] theorem State.busRead_sram (a : Addr) :
    ((s.busRead a).2).sram = s.sram := by
  rcases s.busRead_cases a with ⟨_, _, -, h⟩ | ⟨_, -, h⟩ | ⟨-, h⟩ <;> simp [h]
@[simp] theorem State.busRead_cpuCycles (a : Addr) :
    ((s.busRead a).2).cpuCycles = s.cpuCycles := by
  rcases s.busRead_cases a with ⟨_, _, -, h⟩ | ⟨_, -, h⟩ | ⟨-, h⟩ <;> simp [h]
@[simp] theorem State.busRead_halted (a : Addr) :
    ((s.busRead a).2).halted = s.halted := by
  rcases s.busRead_cases a with ⟨_, _, -, h⟩ | ⟨_, -, h⟩ | ⟨-, h⟩ <;> simp [h]
@[simp] theorem State.busRead_cfg (a : Addr) :
    ((s.busRead a).2).cfg = s.cfg := by
  rcases s.busRead_cases a with ⟨_, _, -, h⟩ | ⟨_, -, h⟩ | ⟨-, h⟩ <;> simp [h]

@[simp] theorem State.busWrite_a (a : Addr) (v : Byte) :
    (s.busWrite a v).a = s.a := by
  rcases s.busWrite_cases a v with ⟨_, _, -, h⟩ | ⟨_, -, h⟩ | ⟨-, h⟩ <;> simp [h]
@[simp] theorem State.busWrite_x (a : Addr) (v : Byte) :
    (s.busWrite a v).x = s.x := by
  rcases s.busWrite_cases a v with ⟨_, _, -, h⟩ | ⟨_, -, h⟩ | ⟨-, h⟩ <;> simp [h]
@[simp] theorem State.busWrite_y (a : Addr) (v : Byte) :
    (s.busWrite a v).y = s.y := by
  rcases s.busWrite_cases a v with ⟨_, _, -, h⟩ | ⟨_, -, h⟩ | ⟨-, h⟩ <;> simp [h]
@[simp] theorem State.busWrite_sp (a : Addr) (v : Byte) :
    (s.busWrite a v).sp = s.sp := by
  rcases s.busWrite_cases a v with ⟨_, _, -, h⟩ | ⟨_, -, h⟩ | ⟨-, h⟩ <;> simp [h]
@[simp] theorem State.busWrite_p (a : Addr) (v : Byte) :
    (s.busWrite a v).p = s.p := by
  rcases s.busWrite_cases a v with ⟨_, _, -, h⟩ | ⟨_, -, h⟩ | ⟨-, h⟩ <;> simp [h]
@[simp] theorem State.busWrite_pc (a : Addr) (v : Byte) :
    (s.busWrite a v).pc = s.pc := by
  rcases s.busWrite_cases a v with ⟨_, _, -, h⟩ | ⟨_, -, h⟩ | ⟨-, h⟩ <;> simp [h]
@[simp] theorem State.busWrite_cpuCycles (a : Addr) (v : Byte) :
    (s.busWrite a v).cpuCycles = s.cpuCycles := by
  rcases s.busWrite_cases a v with ⟨_, _, -, h⟩ | ⟨_, -, h⟩ | ⟨-, h⟩ <;> simp [h]
@[simp] theorem State.busWrite_halted (a : Addr) (v : Byte) :
    (s.busWrite a v).halted = s.halted := by
  rcases s.busWrite_cases a v with ⟨_, _, -, h⟩ | ⟨_, -, h⟩ | ⟨-, h⟩ <;> simp [h]
@[simp] theorem State.busWrite_cfg (a : Addr) (v : Byte) :
    (s.busWrite a v).cfg = s.cfg := by
  rcases s.busWrite_cases a v with ⟨_, _, -, h⟩ | ⟨_, -, h⟩ | ⟨-, h⟩ <;> simp [h]

@[simp] theorem State.busRead_latch (a : Addr) : (s.busRead a).2.latch = (s.busRead a).1 := by
  rcases s.busRead_cases a with ⟨_, _, -, h⟩ | ⟨_, -, h⟩ | ⟨-, h⟩ <;> simp [h]

@[simp] theorem State.busWrite_latch (a : Addr) (v : Byte) : (s.busWrite a v).latch = v := by
  rcases s.busWrite_cases a v with ⟨_, _, -, h⟩ | ⟨_, -, h⟩ | ⟨-, h⟩ <;> simp [h]

/-! ## The address map on the zero page, the stack page and program ROM -/

theorem toNat_zeroPage (z : Byte) : (zeroPage z).toNat = z.toNat := by
  simp only [zeroPage, BitVec.toNat_setWidth]
  omega

theorem toNat_stackAddr (sp : Byte) : (stackAddr sp).toNat = 256 + sp.toNat := by
  revert sp
  decide +kernel

/-- An address below 0x2000 is the work-RAM cell of its value modulo 2048 (R51, R52). -/
theorem translate_wram (cfg : Config) {a : Addr} (h : a.toNat < 0x2000) :
    translateAddr cfg a = .cell .wram (a.toNat % 2048) := by
  rw [translateAddr, if_pos h, BitVec.toNat_and]
  exact congrArg _ (Nat.and_two_pow_sub_one_eq_mod a.toNat 11)

theorem translate_zeroPage (cfg : Config) (z : Byte) :
    translateAddr cfg (zeroPage z) = .cell .wram z.toNat := by
  have h := toNat_zeroPage z
  rw [translate_wram cfg (by omega), h, Nat.mod_eq_of_lt (by omega)]

theorem translate_stackAddr (cfg : Config) (sp : Byte) :
    translateAddr cfg (stackAddr sp) = .cell .wram (256 + sp.toNat) := by
  have h := toNat_stackAddr sp
  rw [translate_wram cfg (by omega), h, Nat.mod_eq_of_lt (by omega)]

/-- An address from 0x8000 on is a program-ROM cell (R51, R57). -/
theorem translate_prg (cfg : Config) {a : Addr} (h : 0x8000 ≤ a.toNat) :
    translateAddr cfg a = .cell .prg ((a.toNat - 0x8000) % cfg.prgSize) := by
  rw [translateAddr, if_neg (by omega), if_neg (by omega), if_neg (by omega), if_neg (by omega)]

/-! ## Accesses to storage -/

variable {s}

theorem State.busRead_cell {a : Addr} {b : Buffer} {i : Nat} (h : translateAddr s.cfg a = .cell b i) :
    s.busRead a = (s.cell b i, s.setLatch (s.cell b i)) := by
  simp only [State.busRead, h]

theorem State.busWrite_cell {a : Addr} {b : Buffer} {i : Nat} (v : Byte)
    (h : translateAddr s.cfg a = .cell b i) : s.busWrite a v = (s.store b i v).setLatch v := by
  simp only [State.busWrite, h]

theorem State.peek_cell {a : Addr} {b : Buffer} {i : Nat} (h : translateAddr s.cfg a = .cell b i) :
    s.peek a = some (s.cell b i) := by
  simp only [State.peek, h]

/-- Where storage lies behind an address, a read returns its byte and sets the latch only. -/
theorem State.busRead_of_peek {a : Addr} {v : Byte} (h : s.peek a = some v) :
    s.busRead a = (v, s.setLatch v) := by
  unfold State.peek at h
  split at h
  next ht => rw [State.busRead_cell ht, Option.some.inj h]
  all_goals cases h

/-- Storage is all that a stored byte depends on. -/
theorem State.peek_congr {t : State} (hw : t.wram = s.wram) (hs : t.sram = s.sram)
    (hc : t.cfg = s.cfg) (a : Addr) : t.peek a = s.peek a := by
  have : ∀ b, t.buffer b = s.buffer b := by
    intro b
    cases b <;> simp [State.buffer, hw, hs, hc]
  simp only [State.peek, State.cell, hc, this]

theorem State.cell_congr {t : State} (hw : t.wram = s.wram) (hs : t.sram = s.sram)
    (hc : t.cfg = s.cfg) (b : Buffer) (i : Nat) : t.cell b i = s.cell b i := by
  cases b <;> simp [State.cell, State.buffer, hw, hs, hc]

@[simp] theorem State.cell_setLatch (v : Byte) (b : Buffer) (i : Nat) :
    (s.setLatch v).cell b i = s.cell b i := State.cell_congr rfl rfl rfl b i

@[simp] theorem State.cell_setSp (v : Byte) (b : Buffer) (i : Nat) :
    (s.setSp v).cell b i = s.cell b i := State.cell_congr rfl rfl rfl b i

@[simp] theorem State.cell_setP (v : Byte) (b : Buffer) (i : Nat) :
    (s.setP v).cell b i = s.cell b i := State.cell_congr rfl rfl rfl b i

@[simp] theorem State.cell_setPc (v : Addr) (b : Buffer) (i : Nat) :
    (s.setPc v).cell b i = s.cell b i := State.cell_congr rfl rfl rfl b i

@[simp] theorem State.cell_advance (n : Nat) (b : Buffer) (i : Nat) :
    (s.advance n).cell b i = s.cell b i := State.cell_congr rfl rfl rfl b i

@[simp] theorem State.cell_tick (n : Nat) (b : Buffer) (i : Nat) :
    (s.tick n).cell b i = s.cell b i := State.cell_congr rfl rfl rfl b i

@[simp] theorem State.peek_busRead (a b : Addr) : (s.busRead a).2.peek b = s.peek b :=
  State.peek_congr (by simp) (by simp) (by simp) b

/-- What a cell holds after a store: program ROM is immutable (R61, R67). -/
theorem State.cell_store (b c : Buffer) (i j : Nat) (v : Byte) :
    (s.store b i v).cell c j =
      if c = b ∧ j = i ∧ b ≠ .prg then v else s.cell c j := by
  cases b <;> cases c <;>
    simp [State.store, State.cell, State.buffer, Memory.byte?_put] <;> split_ifs <;> simp

/-- What is stored behind an address after a bus write: the byte written, behind every address that
reaches the cell when it is RAM, and what was there otherwise (R61, R66, R67). -/
theorem State.peek_busWrite (a c : Addr) (v : Byte) :
    (s.busWrite a v).peek c =
      if translateAddr s.cfg c = translateAddr s.cfg a ∧ (translateAddr s.cfg a).isRam = true then some v
      else s.peek c := by
  rcases s.busWrite_cases a v with ⟨b, i, ht, h⟩ | ⟨r, ht, h⟩ | ⟨ht, h⟩
  · rw [h, ht]
    simp only [State.peek, State.setLatch_cfg, State.store_cfg, State.cell_setLatch]
    cases hc : translateAddr s.cfg c with
    | cell b' i' =>
      simp only [State.cell_store, Target.cell.injEq]
      cases b <;> simp only [Target.isRam] <;> split_ifs <;> simp_all
    | gfx r => simp
    | openBus => simp
  · rw [h, ht, if_neg (by rintro ⟨-, h⟩; cases h)]
    exact State.peek_congr (by simp) (by simp) (by simp) c
  · rw [h, ht, if_neg (by rintro ⟨-, h⟩; cases h)]
    exact State.peek_congr rfl rfl rfl c

/-! ## The stack -/

/-- A push is a store in the stack page, the latch, and the pointer (R27). -/
theorem State.push_eq (v : Byte) :
    s.push v = ((s.store .wram (256 + s.sp.toNat) v).setLatch v).setSp (s.sp - 1) := by
  rw [State.push, State.busWrite_cell v (translate_stackAddr s.cfg s.sp)]

/-- A pull is a read in the stack page, the latch, and the pointer (R27). -/
theorem State.pull_eq :
    s.pull = (s.cell .wram (256 + (s.sp + 1).toNat),
      (s.setSp (s.sp + 1)).setLatch (s.cell .wram (256 + (s.sp + 1).toNat))) := by
  rw [State.pull, State.busRead_cell (translate_stackAddr _ _)]
  simp

/-- The two pulls of a 16-bit value (R196, R213). -/
theorem State.pullWord_eq :
    s.pullWord = (wordOf (s.cell .wram (256 + (s.sp + 1).toNat))
        (s.cell .wram (256 + (s.sp + 1 + 1).toNat)),
      (s.setSp (s.sp + 1 + 1)).setLatch (s.cell .wram (256 + (s.sp + 1 + 1).toNat))) := by
  simp only [State.pullWord, State.pull_eq, State.setLatch_sp, State.setSp_sp, State.cell_setLatch,
    State.cell_setSp]
  rfl

/-- The zero-page pointer read touches the latch only (R73). -/
theorem State.read16Zp_eq (z : Byte) :
    s.read16Zp z = (wordOf (s.cell .wram z.toNat) (s.cell .wram (z + 1).toNat),
      s.setLatch (s.cell .wram (z + 1).toNat)) := by
  rw [State.read16Zp, State.busRead_cell (translate_zeroPage _ _),
    State.busRead_cell (translate_zeroPage _ _)]
  simp only [State.cell_setLatch]
  rfl

/-! ## The resolver -/

/-- The resolver changes at most the latch (R128). -/
theorem resolve_state (o : MemOperand) : ∃ v, (resolve o s).state = s.setLatch v := by
  cases o with
  | indx b1 => exact ⟨_, by rw [resolve, State.read16Zp_eq]⟩
  | indy b1 => exact ⟨_, by rw [resolve, indexed, State.read16Zp_eq]⟩
  | _ => exact ⟨s.latch, rfl⟩

variable (s)

@[simp] theorem resolve_state_a (o : MemOperand) :
    ((resolve o s).state).a = s.a := by
  obtain ⟨v, h⟩ := resolve_state (s := s) o
  simp [h]
@[simp] theorem resolve_state_x (o : MemOperand) :
    ((resolve o s).state).x = s.x := by
  obtain ⟨v, h⟩ := resolve_state (s := s) o
  simp [h]
@[simp] theorem resolve_state_y (o : MemOperand) :
    ((resolve o s).state).y = s.y := by
  obtain ⟨v, h⟩ := resolve_state (s := s) o
  simp [h]
@[simp] theorem resolve_state_sp (o : MemOperand) :
    ((resolve o s).state).sp = s.sp := by
  obtain ⟨v, h⟩ := resolve_state (s := s) o
  simp [h]
@[simp] theorem resolve_state_p (o : MemOperand) :
    ((resolve o s).state).p = s.p := by
  obtain ⟨v, h⟩ := resolve_state (s := s) o
  simp [h]
@[simp] theorem resolve_state_pc (o : MemOperand) :
    ((resolve o s).state).pc = s.pc := by
  obtain ⟨v, h⟩ := resolve_state (s := s) o
  simp [h]
@[simp] theorem resolve_state_wram (o : MemOperand) :
    ((resolve o s).state).wram = s.wram := by
  obtain ⟨v, h⟩ := resolve_state (s := s) o
  simp [h]
@[simp] theorem resolve_state_sram (o : MemOperand) :
    ((resolve o s).state).sram = s.sram := by
  obtain ⟨v, h⟩ := resolve_state (s := s) o
  simp [h]
@[simp] theorem resolve_state_cpuCycles (o : MemOperand) :
    ((resolve o s).state).cpuCycles = s.cpuCycles := by
  obtain ⟨v, h⟩ := resolve_state (s := s) o
  simp [h]
@[simp] theorem resolve_state_ppuCycles (o : MemOperand) :
    ((resolve o s).state).ppuCycles = s.ppuCycles := by
  obtain ⟨v, h⟩ := resolve_state (s := s) o
  simp [h]
@[simp] theorem resolve_state_ppu (o : MemOperand) :
    ((resolve o s).state).ppu = s.ppu := by
  obtain ⟨v, h⟩ := resolve_state (s := s) o
  simp [h]
@[simp] theorem resolve_state_halted (o : MemOperand) :
    ((resolve o s).state).halted = s.halted := by
  obtain ⟨v, h⟩ := resolve_state (s := s) o
  simp [h]
@[simp] theorem resolve_state_cfg (o : MemOperand) :
    ((resolve o s).state).cfg = s.cfg := by
  obtain ⟨v, h⟩ := resolve_state (s := s) o
  simp [h]

variable {s}

/-- Advancing `PC` first does not change what the resolver finds. -/
theorem resolve_advance (o : MemOperand) (n : Nat) :
    resolve o (s.advance n) =
      ⟨(resolve o s).ea, (resolve o s).penalty, (resolve o s).state.advance n⟩ := by
  cases o <;> simp only [resolve, indexed, State.read16Zp_eq, State.cell_advance,
    State.advance_x, State.advance_y] <;> rfl

end Sys2Proof.Machine
end

