-- ==== Sys2Proof/Laws/Operands.lean ====
section
/-! SUPPORT. Bus accesses do not see `PC` and `P`, and what each shared frame of `Operands.lean` answers:
the access of the mode, with `PC` moved and the clock advanced. Provers cite these and do not unfold the
frames. -/

namespace Sys2Proof.Machine

variable {s : State}

/-! ## Bus accesses beside `PC` and `P` -/

theorem State.catchUp_advance (n : Nat) : (s.advance n).catchUp = s.catchUp.advance n := by
  rcases s.catchUp_cases with ⟨h, e⟩ | ⟨h, e⟩
  · rw [e]
    exact if_pos h
  · rw [e]
    exact if_neg (Nat.not_lt.2 h)

theorem State.busRead_advance (n : Nat) (a : Addr) :
    (s.advance n).busRead a = ((s.busRead a).1, (s.busRead a).2.advance n) := by
  rcases (s.advance n).busRead_cases a with ⟨b, i, ht, h⟩ | ⟨r, ht, h⟩ | ⟨ht, h⟩ <;>
    rw [h] <;> simp only [State.busRead, (show translateAddr s.cfg a = _ from ht), State.catchUp_advance,
      State.cell_advance] <;> rfl

theorem State.busWrite_advance (n : Nat) (a : Addr) (v : Byte) :
    (s.advance n).busWrite a v = (s.busWrite a v).advance n := by
  rcases (s.advance n).busWrite_cases a v with ⟨b, i, ht, h⟩ | ⟨r, ht, h⟩ | ⟨ht, h⟩ <;>
    rw [h] <;> simp only [State.busWrite, (show translateAddr s.cfg a = _ from ht), State.catchUp_advance]
  · cases b <;> rfl
  all_goals rfl

theorem State.catchUp_setP (q : Byte) : (s.setP q).catchUp = s.catchUp.setP q := by
  rcases s.catchUp_cases with ⟨h, e⟩ | ⟨h, e⟩
  · rw [e]
    exact if_pos h
  · rw [e]
    exact if_neg (Nat.not_lt.2 h)

theorem State.busRead_setP (q : Byte) (a : Addr) :
    (s.setP q).busRead a = ((s.busRead a).1, (s.busRead a).2.setP q) := by
  rcases (s.setP q).busRead_cases a with ⟨b, i, ht, h⟩ | ⟨r, ht, h⟩ | ⟨ht, h⟩ <;>
    rw [h] <;> simp only [State.busRead, (show translateAddr s.cfg a = _ from ht), State.catchUp_setP,
      State.cell_setP] <;> rfl

theorem State.busWrite_setP (q : Byte) (a : Addr) (v : Byte) :
    (s.setP q).busWrite a v = (s.busWrite a v).setP q := by
  rcases (s.setP q).busWrite_cases a v with ⟨b, i, ht, h⟩ | ⟨r, ht, h⟩ | ⟨ht, h⟩ <;>
    rw [h] <;> simp only [State.busWrite, (show translateAddr s.cfg a = _ from ht), State.catchUp_setP]
  · cases b <;> rfl
  all_goals rfl

/-- The resolver does not see `P` (R128). -/
theorem resolve_setP (o : MemOperand) (q : Byte) :
    resolve o (s.setP q) =
      ⟨(resolve o s).ea, (resolve o s).penalty, (resolve o s).state.setP q⟩ := by
  cases o <;> simp only [resolve, indexed, State.read16Zp_eq, State.cell_setP,
    State.setP_x, State.setP_y] <;> rfl

/-! ## What the frames answer -/

/-- Read class (R125): `f` of the byte at the effective address, in the state the accesses left. -/
theorem runRead_eq (base : Nat) (o : MemOperand) (f : Byte → State → State) :
    runRead base o f s = .next ((f ((resolve o s).state.busRead (resolve o s).ea).1
      (((resolve o s).state.busRead (resolve o s).ea).2.advance (1 + o.mode.operandBytes))).tick
        (base + (resolve o s).penalty)) := by
  simp only [runRead, resolve_advance, State.busRead_advance]

/-- Write class (R125): one write of the effective address. -/
theorem runStore_eq (base : Nat) (o : MemOperand) (reg : State → Byte) :
    runStore base o reg s = .next ((((resolve o s).state.busWrite (resolve o s).ea (reg s)).advance
      (1 + o.mode.operandBytes)).tick (base + (resolve o s).penalty)) := by
  simp only [runStore, resolve_advance, State.busWrite_advance]

/-- Modify class (R170): one read, then one write of the effective address. -/
theorem runModify_eq (base : Nat) (o : MemOperand) (f : Byte → Byte → Byte × Byte) :
    runModify base o f s =
      .next ((((((resolve o s).state.busRead (resolve o s).ea).2.busWrite (resolve o s).ea
        (f ((resolve o s).state.busRead (resolve o s).ea).1 s.p).1).setP
        (f ((resolve o s).state.busRead (resolve o s).ea).1 s.p).2).advance
        (1 + o.mode.operandBytes)).tick (base + (resolve o s).penalty)) := by
  simp only [runModify, resolve_advance, State.busRead_advance, State.busWrite_advance,
    State.advance_p, State.busRead_p, resolve_state_p]
  rfl

/-- A branch (R185): taken or not, only `PC` and the clock change. -/
theorem runBranch_eq (cond : Byte → Bool) (disp : Int) :
    runBranch cond disp s = .next
      (if cond s.p then
        ((s.setPc (relTarget (s.pc + 2) disp)).tick
          (3 + pagePenalty (s.pc + 2) (relTarget (s.pc + 2) disp)))
      else (s.setPc (s.pc + 2)).tick 2) := by
  simp only [runBranch, State.advance_pc]
  split
  · rw [← Nat.add_assoc]
    rfl
  · rfl

end Sys2Proof.Machine
end

