-- ==== Sys2Proof/Laws/Classes.lean ====
section
/-! SUPPORT. What executing an instruction comes to, said once for each class: which shared frame with
which function. A claim about a mnemonic takes its class from here and its frame from
`Laws/Operands.lean`, and does not walk through the constructors. -/

namespace Sys2Proof.Machine

/-- What a read-class mnemonic does with its operand byte. -/
def readBody : Mnemonic → Option (Byte → State → State)
  | .lda => some loadA
  | .ldx => some loadX
  | .ldy => some loadY
  | .adc => some addToA
  | .sbc => some subFromA
  | .and => some andToA
  | .ora => some orToA
  | .eor => some xorToA
  | .cmp => some compareA
  | .cpx => some compareX
  | .cpy => some compareY
  | .bit => some testBits
  | _ => none

/-- The register a write-class mnemonic stores. -/
def storeSource : Mnemonic → Option (State → Byte)
  | .sta => some State.a
  | .stx => some State.x
  | .sty => some State.y
  | _ => none

/-- What a modify-class mnemonic does to a byte and `P`. -/
def modifyBody : Mnemonic → Option (Byte → Byte → Byte × Byte)
  | .inc => some incByte
  | .dec => some decByte
  | .asl => some aslByte
  | .lsr => some lsrByte
  | .rol => some rolByte
  | .ror => some rorByte
  | _ => none

/-- The condition of a branch. -/
def branchCond : Mnemonic → Option (Byte → Bool)
  | .bcc => some fun p => !flag p .c
  | .bcs => some fun p => flag p .c
  | .beq => some fun p => flag p .z
  | .bne => some fun p => !flag p .z
  | .bmi => some fun p => flag p .n
  | .bpl => some fun p => !flag p .n
  | .bvc => some fun p => !flag p .v
  | .bvs => some fun p => flag p .v
  | _ => none

/-- The base cost of an instruction from its opcode written out. -/
theorem base_of_opcode {i : Instr} {op : Byte} {r : Row} (h : i.opcode = op)
    (hr : opcodeRow? op = some r) : i.base = r.base := by
  subst h
  simp only [Instr.base, hr]

/-- A read-class instruction is immediate, at 2 cycles, or reads its effective address. -/
theorem exec_read {i : Instr} {f : Byte → State → State} (h : readBody i.mnemonic = some f) :
    (∃ b1, i.operand = .imm b1 ∧ (∀ s, exec i s = runImmediate 2 b1 f s) ∧ i.base = 2) ∨
    (∃ m, i.operand = .mem m ∧ ∃ base, (∀ s, exec i s = runRead base m f s) ∧ i.base = base) := by
  cases i <;> cases h <;> first
    | refine .inl ⟨_, rfl, ?_⟩
      exact ⟨fun _ => rfl, by simp only [Instr.base, Instr.opcode]; rfl⟩
    | refine .inr ⟨_, rfl, ?_⟩
      exact ⟨_, fun _ => rfl, by simp only [Instr.base, Instr.opcode]; rfl⟩

/-- A write-class instruction stores its register at its effective address. -/
theorem exec_store {i : Instr} {reg : State → Byte} (h : storeSource i.mnemonic = some reg) :
    ∃ m, i.operand = .mem m ∧ ∃ base, (∀ s, exec i s = runStore base m reg s) ∧ i.base = base := by
  cases i <;> cases h <;>
    exact ⟨_, rfl, _, fun _ => rfl, by simp only [Instr.base, Instr.opcode]; rfl⟩

/-- A modify-class instruction works on the accumulator, at 2 cycles, or on its effective address. -/
theorem exec_modify {i : Instr} {f : Byte → Byte → Byte × Byte}
    (h : modifyBody i.mnemonic = some f) :
    (i.operand = .acc ∧ (∀ s, exec i s = runAccumulator 2 f s) ∧ i.base = 2) ∨
    (∃ m, i.operand = .mem m ∧ ∃ base, (∀ s, exec i s = runModify base m f s) ∧ i.base = base) := by
  cases i <;> cases h <;> first
    | refine .inl ⟨rfl, ?_⟩
      exact ⟨fun _ => rfl, by simp only [Instr.base, Instr.opcode]; rfl⟩
    | refine .inr ⟨_, rfl, ?_⟩
      exact ⟨_, fun _ => rfl, by simp only [Instr.base, Instr.opcode]; rfl⟩

/-- A branch tests its condition. -/
theorem exec_branch {i : Instr} {cond : Byte → Bool} (h : branchCond i.mnemonic = some cond) :
    ∃ disp, i.operand = .rel disp ∧ (∀ s, exec i s = runBranch cond disp s) ∧ i.base = 2 := by
  cases i <;> cases h <;>
    exact ⟨_, rfl, fun _ => rfl, by simp only [Instr.base, Instr.opcode]; rfl⟩

/-- The instructions outside the four classes: implicit mode, JMP and JSR. -/
def singles : List Mnemonic :=
  [.tax, .tay, .txa, .tya, .tsx, .txs, .inx, .iny, .dex, .dey, .jmp, .jsr, .rts, .pha, .pla, .php,
    .plp, .clc, .sec, .cli, .sei, .clv, .cld, .sed, .brk, .rti, .nop]

/-- Every instruction is of one of the four classes or one of the singles. -/
theorem class_cases (i : Instr) :
    (∃ f, readBody i.mnemonic = some f) ∨ (∃ reg, storeSource i.mnemonic = some reg) ∨
    (∃ f, modifyBody i.mnemonic = some f) ∨ (∃ cond, branchCond i.mnemonic = some cond) ∨
    i.mnemonic ∈ singles := by
  generalize i.mnemonic = m
  cases m <;> first
    | exact .inl ⟨_, rfl⟩
    | exact .inr (.inl ⟨_, rfl⟩)
    | exact .inr (.inr (.inl ⟨_, rfl⟩))
    | exact .inr (.inr (.inr (.inl ⟨_, rfl⟩)))
    | exact .inr (.inr (.inr (.inr (by decide))))

/-- The singles, form by form. -/
theorem single_cases {i : Instr} (h : i.mnemonic ∈ singles) :
    i ∈ [.tax, .tay, .txa, .tya, .tsx, .txs, .inx, .iny, .dex, .dey, .rts, .pha, .pla, .php, .plp,
      .clc, .sec, .cli, .sei, .clv, .cld, .sed, .brk, .rti, .nop] ∨
    (∃ w, i = .jmpAbs w) ∨ (∃ w, i = .jmpInd w) ∨ (∃ w, i = .jsr w) := by
  cases i <;> simp only [Instr.mnemonic] at h <;> first
    | exact absurd h (by decide)
    | exact .inl (by decide)
    | exact .inr (.inl ⟨_, rfl⟩)
    | exact .inr (.inr (.inl ⟨_, rfl⟩))
    | exact .inr (.inr (.inr ⟨_, rfl⟩))

/-- The implicit-mode instructions but BRK: base cost and effect on the state whose `PC` has moved. -/
def impliedBody : Mnemonic → Option (Nat × (State → State))
  | .tax => some (2, fun t => t.withX (passNZ t.a t.p))
  | .tay => some (2, fun t => t.withY (passNZ t.a t.p))
  | .txa => some (2, fun t => t.withA (passNZ t.x t.p))
  | .tya => some (2, fun t => t.withA (passNZ t.y t.p))
  | .tsx => some (2, fun t => t.withX (passNZ t.sp t.p))
  | .txs => some (2, fun t => t.setSp t.x)
  | .inx => some (2, fun t => t.withX (incByte t.x t.p))
  | .iny => some (2, fun t => t.withY (incByte t.y t.p))
  | .dex => some (2, fun t => t.withX (decByte t.x t.p))
  | .dey => some (2, fun t => t.withY (decByte t.y t.p))
  | .rts => some (6, fun t => t.pullWord.2.setPc (t.pullWord.1 + 1))
  | .pha => some (3, fun t => t.push t.a)
  | .pla => some (4, fun t => t.pull.2.withA (passNZ t.pull.1 t.p))
  | .php => some (3, fun t => t.push (pushedStatus t.p))
  | .plp => some (4, fun t => t.pull.2.setP (pulledStatus t.p t.pull.1))
  | .clc => some (2, writeFlag .c false)
  | .sec => some (2, writeFlag .c true)
  | .cli => some (2, writeFlag .i false)
  | .sei => some (2, writeFlag .i true)
  | .clv => some (2, writeFlag .v false)
  | .cld => some (2, writeFlag .d false)
  | .sed => some (2, writeFlag .d true)
  | .rti => some (6, State.returnFromTrap)
  | .nop => some (2, fun t => t)
  | _ => none

/-- An implicit-mode instruction but BRK has its effect after `PC` has moved past its byte (R112). -/
theorem exec_implied {i : Instr} {base : Nat} {f : State → State}
    (h : impliedBody i.mnemonic = some (base, f)) :
    i.operand = .impl ∧ (∀ s, exec i s = .next ((f (s.advance 1)).tick base)) ∧ i.base = base := by
  cases i <;> cases h <;>
    exact ⟨rfl, fun _ => rfl, by simp only [Instr.base, Instr.opcode]; rfl⟩

/-! ## What the functions of the classes leave alone -/

/-- A read-class instruction's own work is on `A`, `X`, `Y`, `P`. -/
theorem readBody_frame {m : Mnemonic} {f : Byte → State → State} (h : readBody m = some f)
    (v : Byte) (s : State) :
    ∃ a x y p, f v s = { s with a := a, x := x, y := y, p := p } := by
  cases m <;> cases h <;> exact ⟨_, _, _, _, rfl⟩

/-- No read-class instruction touches bits 4 and 5 of `P` (R25). -/
theorem readBody_reserved {m : Mnemonic} {f : Byte → State → State} (h : readBody m = some f)
    (v : Byte) (s : State) (g : Flag) (hg : g = .b ∨ g = .u) :
    flag (f v s).p g = flag s.p g := by
  cases m <;> cases h <;> rcases hg with rfl | rfl <;>
    simp [loadA, loadX, loadY, addToA, subFromA, andToA, orToA, xorToA, compareA, compareX,
      compareY, testBits, sbc, flag_adc, flag_compareFlags, flag_bitTest]

/-- No modify-class instruction touches bits 4 and 5 of `P` (R25). -/
theorem modifyBody_reserved {m : Mnemonic} {f : Byte → Byte → Byte × Byte}
    (h : modifyBody m = some f) (v p : Byte) (g : Flag) (hg : g = .b ∨ g = .u) :
    flag (f v p).2 g = flag p g := by
  cases m <;> cases h <;> rcases hg with rfl | rfl <;>
    simp [incByte, decByte, aslByte, lsrByte, rolByte, rorByte]

/-- A read-class body and the write of a flag it does not read commute: `I` and `D` (R24, R28). -/
theorem readBody_setFlag {m : Mnemonic} {f : Byte → State → State} (h : readBody m = some f)
    (v : Byte) (s : State) (g : Flag) (b : Bool) (hg : g = .i ∨ g = .d) :
    f v (s.setP (setFlag s.p g b)) = (f v s).setP (setFlag (f v s).p g b) := by
  have key : ∀ q : Byte × Byte, ∀ q' : Byte × Byte, q.1 = q'.1 →
      (∀ k, flag q.2 k = flag (setFlag q'.2 g b) k) → q = (q'.1, setFlag q'.2 g b) :=
    fun q q' h1 h2 => Prod.ext h1 (status_ext h2)
  have hadc : ∀ a m p, adc a m (setFlag p g b) = ((adc a m p).1, setFlag (adc a m p).2 g b) := by
    intro a m p
    have hc : flag (setFlag p g b) .c = flag p .c := by rcases hg with rfl | rfl <;> simp
    refine key _ _ (by rw [adc_fst, adc_fst, hc]) fun k => ?_
    have h1 : (adc a m (setFlag p g b)).1 = (adc a m p).1 := by rw [adc_fst, adc_fst, hc]
    rw [flag_setFlag, flag_adc, flag_adc, h1, hc, flag_setFlag]
    rcases hg with rfl | rfl <;> cases k <;> simp
  have hp : ∀ v p, passNZ v (setFlag p g b) = ((passNZ v p).1, setFlag (passNZ v p).2 g b) := by
    intro v p
    refine key _ _ rfl fun k => ?_
    rcases hg with rfl | rfl <;> cases k <;> simp
  have hcmp : ∀ r m p, compareFlags r m (setFlag p g b) = setFlag (compareFlags r m p) g b := by
    intro r m p
    refine status_ext fun k => ?_
    rcases hg with rfl | rfl <;> cases k <;> simp [flag_compareFlags]
  have hbit : ∀ a m p, bitTest a m (setFlag p g b) = setFlag (bitTest a m p) g b := by
    intro a m p
    refine status_ext fun k => ?_
    rcases hg with rfl | rfl <;> cases k <;> simp [flag_bitTest]
  cases m <;> cases h <;>
    simp only [loadA, loadX, loadY, addToA, subFromA, andToA, orToA, xorToA, compareA, compareX,
      compareY, testBits, sbc, State.setP_a, State.setP_x, State.setP_y, State.setP_p, hadc, hp,
      hcmp, hbit] <;> rfl

/-- A modify-class body and the write of `I` or `D` commute (R24, R28). -/
theorem modifyBody_setFlag {m : Mnemonic} {f : Byte → Byte → Byte × Byte}
    (h : modifyBody m = some f) (v p : Byte) (g : Flag) (b : Bool) (hg : g = .i ∨ g = .d) :
    f v (setFlag p g b) = ((f v p).1, setFlag (f v p).2 g b) := by
  have hc : flag (setFlag p g b) .c = flag p .c := by rcases hg with rfl | rfl <;> simp
  cases m <;> cases h <;>
    simp only [incByte, decByte, aslByte, lsrByte, rolByte, rorByte, hc] <;>
    refine Prod.ext rfl (status_ext fun k => ?_) <;>
    rcases hg with rfl | rfl <;> cases k <;> simp

end Sys2Proof.Machine
end

