-- ==== Sys2Proof/Laws/Decode.lean ====
section
/-! SUPPORT. The laws of the byte helpers and of one row of the instruction table: how each format
decodes. -/

namespace Sys2Proof

theorem toNat_wordOf (lo hi : Byte) : (wordOf lo hi).toNat = lo.toNat + 256 * hi.toNat := by
  have h : (wordOf lo hi).toNat = hi.toNat <<< 8 ||| lo.toNat := BitVec.toNat_append hi lo
  rw [h, ← Nat.shiftLeft_add_eq_or_of_lt (by omega), Nat.shiftLeft_eq]
  omega

theorem toNat_loByte (v : Addr) : (loByte v).toNat = v.toNat % 256 := by
  simp [loByte]

theorem toNat_hiByte (v : Addr) : (hiByte v).toNat = v.toNat / 256 := by
  have h := v.isLt
  simp only [hiByte, BitVec.extractLsb'_toNat, Nat.shiftRight_eq_div_pow]
  omega

@[simp] theorem loByte_wordOf (lo hi : Byte) : loByte (wordOf lo hi) = lo := by
  apply BitVec.eq_of_toNat_eq
  rw [toNat_loByte, toNat_wordOf]
  omega

@[simp] theorem hiByte_wordOf (lo hi : Byte) : hiByte (wordOf lo hi) = hi := by
  apply BitVec.eq_of_toNat_eq
  rw [toNat_hiByte, toNat_wordOf]
  omega

@[simp] theorem wordOf_loByte_hiByte (w : Addr) : wordOf (loByte w) (hiByte w) = w := by
  apply BitVec.eq_of_toNat_eq
  rw [toNat_wordOf, toNat_loByte, toNat_hiByte]
  omega

/-- A displacement in range survives its byte (R93). -/
theorem toInt_ofInt_of_dispInRange {disp : Int} (h : dispInRange disp = true) :
    (BitVec.ofInt 8 disp).toInt = disp := by
  simp only [dispInRange, Bool.and_eq_true, decide_eq_true_eq] at h
  rw [BitVec.toInt_ofInt]
  exact Int.bmod_eq_of_le (by omega) (by omega)

/-- The displacement of any byte is in range (R93). -/
theorem dispInRange_toInt (b1 : Byte) : dispInRange b1.toInt = true := by
  revert b1
  decide +kernel

variable {op : Byte} {m : Mnemonic} {md : Mode} {base : Nat} {rest : List Byte}

/-- Decoding in format F1 (R92). -/
theorem decode_f1 {i : Instr} (h : opcodeRow? op = some ⟨op, m, md, base, .f1 i⟩) :
    decode (op :: rest) = .decoded i rest := by
  simp only [decode, h, Row.build]

/-- Decoding in format F2 (R92). -/
theorem decode_f2 {make : Byte → Instr} (b1 : Byte)
    (h : opcodeRow? op = some ⟨op, m, md, base, .f2 make⟩) :
    decode (op :: b1 :: rest) = .decoded (make b1) rest := by
  simp only [decode, h, Row.build]

/-- Decoding in relative mode (R92, R93). -/
theorem decode_f2rel {make : Int → Instr} {disp : Int} (hd : dispInRange disp = true)
    (h : opcodeRow? op = some ⟨op, m, md, base, .f2rel make⟩) :
    decode (op :: BitVec.ofInt 8 disp :: rest) = .decoded (make disp) rest := by
  simp only [decode, h, Row.build, toInt_ofInt_of_dispInRange hd]

/-- Decoding in format F3 (R92). -/
theorem decode_f3 {make : Addr → Instr} (w : Addr)
    (h : opcodeRow? op = some ⟨op, m, md, base, .f3 make⟩) :
    decode (op :: loByte w :: hiByte w :: rest) = .decoded (make w) rest := by
  simp only [decode, h, Row.build, wordOf_loByte_hiByte]

/-- What a row's builder makes of its operand bytes: an instruction with the row's opcode, those operand
bytes, and that length; well formed when its displacement is in range (R92, R93). -/
def Form.BuildsFor (op : Byte) : Form → Prop
  | .f1 i => i.opcode = op ∧ i.operand.bytes = [] ∧ i.wellFormed = true ∧ i.length = 1
  | .f2 make => ∀ b1, (make b1).opcode = op ∧ (make b1).operand.bytes = [b1] ∧
      (make b1).wellFormed = true ∧ (make b1).length = 2
  | .f2rel make => ∀ disp, (make disp).opcode = op ∧
      (make disp).operand.bytes = [BitVec.ofInt 8 disp] ∧
      (make disp).wellFormed = dispInRange disp ∧ (make disp).length = 2
  | .f3 make => ∀ w, (make w).opcode = op ∧ (make w).operand.bytes = [loByte w, hiByte w] ∧
      (make w).wellFormed = true ∧ (make w).length = 3

theorem buildsFor_of_mem : ∀ r ∈ opcodeTable, r.form.BuildsFor r.opcode := by
  simp only [opcodeTable, opcodeRow0, opcodeRow1, opcodeRow2, opcodeRow3, opcodeRow4, opcodeRow5,
    opcodeRow6, opcodeRow7, opcodeRow8, opcodeRow9, opcodeRowA, opcodeRowB, opcodeRowC, opcodeRowD,
    opcodeRowE, opcodeRowF, List.cons_append, List.nil_append, List.forall_mem_cons]
  repeat' apply And.intro
  all_goals first
    | exact rfl
    | exact fun _ => ⟨rfl, rfl, rfl, rfl⟩
    | exact fun _ h => absurd h List.not_mem_nil

/-- The row found for an opcode is a row of the table, has that opcode, and builds for it (R94). -/
theorem opcodeRow?_spec {op : Byte} {r : Row} (h : opcodeRow? op = some r) :
    r ∈ opcodeTable ∧ r.opcode = op ∧ r.form.BuildsFor op := by
  rw [opcodeRow?] at h
  have hop : r.opcode = op := by simpa using List.find?_some h
  have hmem : ∀ n r, r ∈ opcodeLine n → r ∈ opcodeTable := by
    intro n r hn
    simp only [opcodeTable, List.mem_append]
    unfold opcodeLine at hn
    split at hn <;> simp only [hn, true_or, or_true]
  have hm := hmem _ _ (List.mem_of_find?_eq_some h)
  exact ⟨hm, hop, hop ▸ buildsFor_of_mem r hm⟩

end Sys2Proof
end

