-- ==== Sys2Proof/Laws/Stack.lean ====
section
/-! SUPPORT. What pushing a word, the trap entry and the trap return do, cell by cell; where an indirect
jump looks; and that a stored byte depends on storage only. -/

namespace Sys2Proof.Machine

variable {s : State}

/-! ## What a stored byte does not depend on -/

@[simp] theorem State.peek_advance (n : Nat) (a : Addr) : (s.advance n).peek a = s.peek a :=
  State.peek_congr rfl rfl rfl a
@[simp] theorem State.peek_tick (n : Nat) (a : Addr) : (s.tick n).peek a = s.peek a :=
  State.peek_congr rfl rfl rfl a
@[simp] theorem State.peek_setP (v : Byte) (a : Addr) : (s.setP v).peek a = s.peek a :=
  State.peek_congr rfl rfl rfl a
@[simp] theorem State.peek_setPc (v : Addr) (a : Addr) : (s.setPc v).peek a = s.peek a :=
  State.peek_congr rfl rfl rfl a
@[simp] theorem State.peek_setSp (v : Byte) (a : Addr) : (s.setSp v).peek a = s.peek a :=
  State.peek_congr rfl rfl rfl a
@[simp] theorem State.peek_setLatch (v : Byte) (a : Addr) : (s.setLatch v).peek a = s.peek a :=
  State.peek_congr rfl rfl rfl a
@[simp] theorem State.peek_resolve (o : MemOperand) (a : Addr) :
    (resolve o s).state.peek a = s.peek a :=
  State.peek_congr (by simp) (by simp) (by simp) a

/-! ## The stack page -/

/-- What the stack page holds at a stack pointer. -/
theorem State.peek_stackAddr (sp : Byte) :
    s.peek (stackAddr sp) = some (s.cell .wram (256 + sp.toNat)) :=
  State.peek_cell (translate_stackAddr _ _)

/-- Two stack pointers with the same address are the same. -/
theorem stackAddr_translate_inj {cfg : Config} {p q : Byte} :
    translateAddr cfg (stackAddr p) = translateAddr cfg (stackAddr q) ↔ p = q := by
  rw [translate_stackAddr, translate_stackAddr]
  constructor
  · intro h
    injection h with _ h
    exact BitVec.eq_of_toNat_eq (by omega)
  · rintro rfl
    rfl

/-- A push changes what is stored behind the stack address, and nothing else that is stored (R27). -/
theorem State.peek_push (v : Byte) (a : Addr) :
    (s.push v).peek a =
      if translateAddr s.cfg a = translateAddr s.cfg (stackAddr s.sp) then some v else s.peek a := by
  rw [State.push, State.peek_setSp, State.peek_busWrite, translate_stackAddr]
  simp [Target.isRam]

/-- Pushing a word: the high byte first (R69, R195). -/
theorem State.peek_pushWord (v : Addr) (a : Addr) :
    (s.pushWord v).peek a =
      if translateAddr s.cfg a = translateAddr s.cfg (stackAddr (s.sp - 1)) then some (loByte v)
      else if translateAddr s.cfg a = translateAddr s.cfg (stackAddr s.sp) then some (hiByte v)
      else s.peek a := by
  rw [State.pushWord, State.peek_push, State.peek_push]
  simp [State.push_eq]

/-- The fields a push leaves alone, and those it sets (R27). -/
theorem State.push_fields (v : Byte) :
    (s.push v).a = s.a ∧ (s.push v).x = s.x ∧ (s.push v).y = s.y ∧ (s.push v).sp = s.sp - 1 ∧
    (s.push v).p = s.p ∧ (s.push v).pc = s.pc ∧ (s.push v).latch = v ∧
    (s.push v).cpuCycles = s.cpuCycles ∧ (s.push v).ppuCycles = s.ppuCycles ∧
    (s.push v).ppu = s.ppu ∧ (s.push v).halted = s.halted ∧ (s.push v).cfg = s.cfg := by
  rw [State.push_eq]
  simp

/-- The fields pushing a word leaves alone, and those it sets (R27). -/
theorem State.pushWord_fields (v : Addr) :
    (s.pushWord v).a = s.a ∧ (s.pushWord v).x = s.x ∧ (s.pushWord v).y = s.y ∧
    (s.pushWord v).sp = s.sp - 1 - 1 ∧ (s.pushWord v).p = s.p ∧ (s.pushWord v).pc = s.pc ∧
    (s.pushWord v).latch = loByte v ∧ (s.pushWord v).cpuCycles = s.cpuCycles ∧
    (s.pushWord v).ppuCycles = s.ppuCycles ∧ (s.pushWord v).ppu = s.ppu ∧
    (s.pushWord v).halted = s.halted ∧ (s.pushWord v).cfg = s.cfg := by
  simp only [State.pushWord, State.push_fields, and_self]

/-! ## The software interrupt -/

/-- The trap entry, as the pushes it makes and the vector it reads (R212, R226). -/
theorem State.takeTrap_brk (ret : Addr) :
    s.takeTrap ret brkVector =
      let t := (s.pushWord ret).push (pushedStatus s.p)
      let lo := t.cell .prg ((0xFFFE - 0x8000) % s.cfg.prgSize)
      let hi := t.cell .prg ((0xFFFF - 0x8000) % s.cfg.prgSize)
      (((t.setP (setFlag s.p .i true)).setLatch hi).setPc (wordOf lo hi)) := by
  have hc : ((s.pushWord ret).push (pushedStatus s.p)).cfg = s.cfg := by
    simp only [State.push_fields, State.pushWord_fields]
  have hp : ((s.pushWord ret).push (pushedStatus s.p)).p = s.p := by
    simp only [State.push_fields, State.pushWord_fields]
  simp only [State.takeTrap, State.read16, hp]
  generalize (s.pushWord ret).push (pushedStatus s.p) = t at hc ⊢
  have h1 : translateAddr (t.setP (setFlag s.p .i true)).cfg brkVector =
      .cell .prg ((0xFFFE - 0x8000) % s.cfg.prgSize) := by
    rw [← hc]
    exact translate_prg _ (by decide)
  rw [State.busRead_cell h1]
  have h2 : translateAddr ((t.setP (setFlag s.p .i true)).setLatch
      ((t.setP (setFlag s.p .i true)).cell .prg ((0xFFFE - 0x8000) % s.cfg.prgSize))).cfg
        (brkVector + 1) = .cell .prg ((0xFFFF - 0x8000) % s.cfg.prgSize) := by
    rw [← hc]
    exact translate_prg _ (by decide)
  rw [State.busRead_cell h2]
  simp only [State.cell_setLatch, State.cell_setP]
  rfl

/-- The trap return: three pulls (R213, R227). -/
theorem State.returnFromTrap_eq :
    s.returnFromTrap =
      let q := s.cell .wram (256 + (s.sp + 1).toNat)
      let lo := s.cell .wram (256 + (s.sp + 1 + 1).toNat)
      let hi := s.cell .wram (256 + (s.sp + 1 + 1 + 1).toNat)
      ((((s.setSp (s.sp + 1 + 1 + 1)).setP (pulledStatus s.p q)).setLatch hi).setPc
        (wordOf lo hi)) := by
  simp only [State.returnFromTrap, State.pull_eq, State.pullWord_eq, State.setP_sp,
    State.setLatch_sp, State.setSp_sp, State.cell_setP, State.cell_setLatch, State.cell_setSp]
  rfl

/-! ## The indirect jump -/

/-- Where the high byte of an indirect jump's target is read, with the masks of R73. -/
theorem indirectHigh_eq (cfg : Config) (w : Addr) :
    indirectHigh cfg w =
      if cfg.jmpIndWrap then (w &&& 0xFF00) ||| ((w + 1) &&& 0x00FF) else w + 1 := by
  rw [indirectHigh]
  split_ifs
  · have h : loByte w + 1 = (w + 1).setWidth 8 := by
      rw [BitVec.setWidth_add _ _ (by decide)]
      rfl
    rw [h]
    apply BitVec.eq_of_getLsbD_eq
    intro i hi
    generalize w + 1 = x
    simp only [wordOf, hiByte, BitVec.getLsbD_append, BitVec.getLsbD_or, BitVec.getLsbD_and,
      BitVec.getLsbD_setWidth, BitVec.getLsbD_extractLsb']
    interval_cases i <;> simp
  · rfl

/-- The word two bytes make, as a number (R10, R69). -/
theorem wordOf_eq_ofNat (lo hi : Byte) :
    wordOf lo hi = BitVec.ofNat 16 (lo.toNat + 256 * hi.toNat) := by
  apply BitVec.eq_of_toNat_eq
  rw [toNat_wordOf, BitVec.toNat_ofNat]
  omega

end Sys2Proof.Machine
end

