-- ==== Sys2Proof/Laws/Invariant.lean ====
section
/-! SUPPORT. Every operation on memory keeps the buffers in canonical form, and every bus access keeps the
co-processor's counter at its own time and not ahead of the CPU's. -/

namespace Sys2Proof.Machine

/-- Work RAM and save RAM in canonical form. -/
def StoreOk (s : State) : Prop :=
  Memory.wf 2048 s.wram = true ∧ Memory.wf s.cfg.sramSize s.sram = true

/-- The co-processor's counter: not ahead of the CPU's time (R231), and its own time (R33). -/
def ClockOk (s : State) : Prop :=
  s.ppuCycles ≤ s.cpuCycles * s.cfg.ppuPerCpu ∧ ppuTime s.ppu = s.ppuCycles

variable {s t : State}

/-! ## What the two depend on -/

theorem StoreOk.congr (h : StoreOk s) (hw : t.wram = s.wram) (hs : t.sram = s.sram)
    (hc : t.cfg = s.cfg) : StoreOk t := by
  rw [StoreOk, hw, hs, hc]
  exact h

theorem ClockOk.congr (h : ClockOk s) (hq : t.ppu = s.ppu) (hp : t.ppuCycles = s.ppuCycles)
    (hc : t.cfg = s.cfg) (hn : s.cpuCycles ≤ t.cpuCycles) : ClockOk t := by
  rw [ClockOk, hq, hp, hc]
  exact ⟨h.1.trans (Nat.mul_le_mul_right _ hn), h.2⟩

/-! ## The canonical form -/

/-- The cells the bus reaches lie inside their buffers (R51). -/
theorem translateAddr_wram_lt {cfg : Config} {a : Addr} {i : Nat}
    (h : translateAddr cfg a = .cell .wram i) : i < 2048 := by
  by_cases h1 : a.toNat < 0x2000
  · rw [translate_wram cfg h1] at h
    cases h
    exact Nat.mod_lt _ (by decide)
  · rw [translateAddr, if_neg h1] at h
    split_ifs at h <;> cases h

theorem translateAddr_sram_lt {cfg : Config} {a : Addr} {i : Nat}
    (h : translateAddr cfg a = .cell .sram i) : i < cfg.sramSize := by
  rw [translateAddr] at h
  split_ifs at h with h1 h2 h3 h4 h5 <;>
    simp only [Target.cell.injEq, reduceCtorEq, false_and, true_and] at h
  rw [← h]
  exact Nat.mod_lt _ (Nat.pos_of_ne_zero h5)

theorem translateAddr_prg_lt {cfg : Config} {a : Addr} {i : Nat} (hc : 1 ≤ cfg.prgBanks)
    (h : translateAddr cfg a = .cell .prg i) : i < cfg.prgSize := by
  rw [translateAddr] at h
  split_ifs at h <;> simp only [Target.cell.injEq, reduceCtorEq, false_and, true_and] at h
  rw [← h]
  exact Nat.mod_lt _ (by unfold Config.prgSize; omega)

/-- A store in a cell the bus reaches keeps the canonical form. -/
theorem StoreOk.store {a : Addr} {b : Buffer} {i : Nat} (h : StoreOk s) (v : Byte)
    (ht : translateAddr s.cfg a = .cell b i) : StoreOk (s.store b i v) := by
  cases b with
  | wram => exact ⟨Memory.wf_put v h.1 (translateAddr_wram_lt ht), h.2⟩
  | sram => exact ⟨h.1, Memory.wf_put v h.2 (translateAddr_sram_lt ht)⟩
  | prg => exact h

theorem StoreOk.busRead (h : StoreOk s) (a : Addr) : StoreOk (s.busRead a).2 :=
  h.congr (by simp) (by simp) (by simp)

theorem StoreOk.busWrite (h : StoreOk s) (a : Addr) (v : Byte) : StoreOk (s.busWrite a v) := by
  rcases s.busWrite_cases a v with ⟨b, i, ht, e⟩ | ⟨r, ht, e⟩ | ⟨ht, e⟩
  · rw [e]
    exact (h.store v ht).congr rfl rfl rfl
  · rw [e]
    exact h.congr (by simp) (by simp) (by simp)
  · rw [e]
    exact h.congr rfl rfl rfl

theorem StoreOk.push (h : StoreOk s) (v : Byte) : StoreOk (s.push v) :=
  (h.busWrite _ v).congr rfl rfl rfl

theorem StoreOk.pushWord (h : StoreOk s) (v : Addr) : StoreOk (s.pushWord v) :=
  (h.push _).push _

/-- Placing a byte from outside keeps the canonical form of all three buffers. -/
theorem poke_wf (a : Addr) (v : Byte) (hc : 1 ≤ s.cfg.prgBanks) (h : StoreOk s)
    (hp : Memory.wfOver 0x00 s.cfg.prgSize s.cfg.prg = true) :
    StoreOk (s.poke a v) ∧
      Memory.wfOver 0x00 (s.poke a v).cfg.prgSize (s.poke a v).cfg.prg = true := by
  unfold State.poke
  split
  next i ht => exact ⟨h, Memory.wfOver_putOver v hp (translateAddr_prg_lt hc ht)⟩
  next b i _ ht => exact ⟨h.store v ht, by cases b <;> exact hp⟩
  all_goals exact ⟨h, hp⟩

/-! ## The clocks -/

theorem ClockOk.catchUp (h : ClockOk s) : ClockOk s.catchUp := by
  rcases s.catchUp_cases with ⟨hl, e⟩ | ⟨-, e⟩
  · rw [e]
    refine ⟨Nat.le_refl _, ?_⟩
    show ppuTime (ppuCatchUp s.ppu _) = _
    rw [ppuCatchUp, if_neg (by rw [h.2]; omega)]
    rfl
  · rw [e]
    exact h

theorem ClockOk.busRead (h : ClockOk s) (a : Addr) : ClockOk (s.busRead a).2 := by
  rcases s.busRead_cases a with ⟨b, i, -, e⟩ | ⟨r, -, e⟩ | ⟨-, e⟩
  · rw [e]
    exact h
  · rw [e]
    exact h.catchUp
  · rw [e]
    exact h

theorem ClockOk.busWrite (h : ClockOk s) (a : Addr) (v : Byte) : ClockOk (s.busWrite a v) := by
  rcases s.busWrite_cases a v with ⟨b, i, -, e⟩ | ⟨r, -, e⟩ | ⟨-, e⟩
  · rw [e]
    exact h.congr (by simp) (by simp) (by simp) (by simp)
  · rw [e]
    exact h.catchUp
  · rw [e]
    exact h

/-- The co-processor's counter never goes back (R231). -/
theorem State.catchUp_ppuCycles_le : s.ppuCycles ≤ s.catchUp.ppuCycles := by
  rcases s.catchUp_cases with ⟨h, e⟩ | ⟨-, e⟩ <;> rw [e]
  exact Nat.le_of_lt h

theorem State.busRead_ppuCycles_le (a : Addr) : s.ppuCycles ≤ (s.busRead a).2.ppuCycles := by
  rcases s.busRead_cases a with ⟨b, i, -, e⟩ | ⟨r, -, e⟩ | ⟨-, e⟩ <;> rw [e]
  · exact Nat.le_refl _
  · exact s.catchUp_ppuCycles_le

theorem State.busWrite_ppuCycles_le (a : Addr) (v : Byte) :
    s.ppuCycles ≤ (s.busWrite a v).ppuCycles := by
  rcases s.busWrite_cases a v with ⟨b, i, -, e⟩ | ⟨r, -, e⟩ | ⟨-, e⟩ <;> rw [e]
  · simp
  · exact s.catchUp_ppuCycles_le
  · exact Nat.le_refl _

/-- Outside the graphics window a read leaves the co-processor alone (R62, R72). -/
theorem State.busRead_ppu {a : Addr} (h : ∀ r, translateAddr s.cfg a ≠ .gfx r) :
    (s.busRead a).2.ppu = s.ppu ∧ (s.busRead a).2.ppuCycles = s.ppuCycles := by
  rcases s.busRead_cases a with ⟨b, i, -, e⟩ | ⟨r, ht, -⟩ | ⟨-, e⟩
  · rw [e]
    exact ⟨rfl, rfl⟩
  · exact absurd ht (h r)
  · rw [e]
    exact ⟨rfl, rfl⟩

theorem State.busWrite_ppu {a : Addr} (v : Byte) (h : ∀ r, translateAddr s.cfg a ≠ .gfx r) :
    (s.busWrite a v).ppu = s.ppu ∧ (s.busWrite a v).ppuCycles = s.ppuCycles := by
  rcases s.busWrite_cases a v with ⟨b, i, -, e⟩ | ⟨r, ht, -⟩ | ⟨-, e⟩
  · rw [e]
    simp
  · exact absurd ht (h r)
  · rw [e]
    exact ⟨rfl, rfl⟩

/-! ## The fetch -/

/-- What fetching bytes leaves alone. -/
theorem State.readBytes_frame (n : Nat) (s : State) (a : Addr) :
    let t := (s.readBytes n a).2
    t.a = s.a ∧ t.x = s.x ∧ t.y = s.y ∧ t.sp = s.sp ∧ t.p = s.p ∧ t.pc = s.pc ∧
    t.wram = s.wram ∧ t.sram = s.sram ∧ t.cpuCycles = s.cpuCycles ∧ t.halted = s.halted ∧
    t.cfg = s.cfg ∧ s.ppuCycles ≤ t.ppuCycles ∧ (ClockOk s → ClockOk t) := by
  induction n generalizing s a with
  | zero => simp [State.readBytes]
  | succ n ih =>
    have h := ih (s.busRead a).2 (a + 1)
    simp only [State.busRead_a, State.busRead_x, State.busRead_y, State.busRead_sp,
      State.busRead_p, State.busRead_pc, State.busRead_wram, State.busRead_sram,
      State.busRead_cpuCycles, State.busRead_halted, State.busRead_cfg] at h
    obtain ⟨h1, h2, h3, h4, h5, h6, h7, h8, h9, h10, h11, h12, h13⟩ := h
    exact ⟨h1, h2, h3, h4, h5, h6, h7, h8, h9, h10, h11, (s.busRead_ppuCycles_le a).trans h12,
      fun hc => h13 (hc.busRead a)⟩

/-- What the fetch of an instruction leaves alone (R111, R129). -/
theorem State.fetch_frame (s : State) :
    let t := s.fetch.2
    t.a = s.a ∧ t.x = s.x ∧ t.y = s.y ∧ t.sp = s.sp ∧ t.p = s.p ∧ t.pc = s.pc ∧
    t.wram = s.wram ∧ t.sram = s.sram ∧ t.cpuCycles = s.cpuCycles ∧ t.halted = s.halted ∧
    t.cfg = s.cfg ∧ s.ppuCycles ≤ t.ppuCycles ∧ (ClockOk s → ClockOk t) := by
  simp only [State.fetch]
  split
  · simp only [State.busRead_a, State.busRead_x, State.busRead_y, State.busRead_sp,
      State.busRead_p, State.busRead_pc, State.busRead_wram, State.busRead_sram,
      State.busRead_cpuCycles, State.busRead_halted, State.busRead_cfg, true_and]
    exact ⟨s.busRead_ppuCycles_le _, fun h => h.busRead _⟩
  · rename_i n _
    have h := State.readBytes_frame n (s.busRead s.pc).2 (s.pc + 1)
    simp only [State.busRead_a, State.busRead_x, State.busRead_y, State.busRead_sp,
      State.busRead_p, State.busRead_pc, State.busRead_wram, State.busRead_sram,
      State.busRead_cpuCycles, State.busRead_halted, State.busRead_cfg] at h
    obtain ⟨h1, h2, h3, h4, h5, h6, h7, h8, h9, h10, h11, h12, h13⟩ := h
    exact ⟨h1, h2, h3, h4, h5, h6, h7, h8, h9, h10, h11,
      (s.busRead_ppuCycles_le _).trans h12, fun hc => h13 (hc.busRead _)⟩

end Sys2Proof.Machine
end

