-- ==== Sys2Proof/Laws/Fetch.lean ====
section
/-! SUPPORT. The fetch of bytes that lie in storage, and that the decoder, given what the fetch read,
rejects invalid opcodes only. -/

namespace Sys2Proof.Machine

variable {s : State}

/-- Bytes that lie in storage are read as they are; only the latch changes (R111, R129). -/
theorem State.readBytes_of_peek (n : Nat) (s : State) (a : Addr) (bytes : List Byte)
    (hl : bytes.length = n)
    (h : ∀ k, k < n → s.peek (BitVec.ofNat 16 (a.toNat + k)) = bytes[k]?) :
    s.readBytes n a = (bytes, if n = 0 then s else s.setLatch (bytes.getLastD 0)) := by
  induction n generalizing s a bytes with
  | zero =>
    cases bytes with
    | nil => rfl
    | cons => cases hl
  | succ n ih =>
    cases bytes with
    | nil => cases hl
    | cons b bytes =>
      have h1 : s.busRead a = (b, s.setLatch b) :=
        State.busRead_of_peek (by simpa using h 0 (by omega))
      have h2 := ih (s.setLatch b) (a + 1) bytes (by simpa using hl) fun k hk => by
        have e : BitVec.ofNat 16 ((a + 1).toNat + k) = BitVec.ofNat 16 (a.toNat + (k + 1)) := by
          apply BitVec.eq_of_toNat_eq
          simp [BitVec.toNat_add]
          omega
        rw [State.peek_setLatch, e, h (k + 1) (by omega)]
        simp
      simp only [State.readBytes, h1, h2]
      refine Prod.ext rfl ?_
      have hl' : bytes.length = n := by simpa using hl
      cases bytes with
      | nil =>
        simp at hl'
        subst hl'
        rfl
      | cons c cs =>
        cases n with
        | zero => cases hl'
        | succ n =>
          simp [List.getLastD]
          rfl

theorem State.readBytes_length (n : Nat) (s : State) (a : Addr) :
    (s.readBytes n a).1.length = n := by
  induction n generalizing s a with
  | zero => rfl
  | succ n ih => simp [State.readBytes, ih]

/-- The mode of a row asks for as many operand bytes as its builder takes (R91, R92). -/
def rowTakes (r : Row) : Prop :=
  match r.form with
  | .f1 _ => r.mode.operandBytes = 0
  | .f2 _ => r.mode.operandBytes = 1
  | .f2rel _ => r.mode.operandBytes = 1
  | .f3 _ => r.mode.operandBytes = 2

theorem rowTakes_of_mem : ∀ r ∈ opcodeTable, rowTakes r := by
  simp only [opcodeTable, opcodeRow0, opcodeRow1, opcodeRow2, opcodeRow3, opcodeRow4, opcodeRow5,
    opcodeRow6, opcodeRow7, opcodeRow8, opcodeRow9, opcodeRowA, opcodeRowB, opcodeRowC, opcodeRowD,
    opcodeRowE, opcodeRowF, List.cons_append, List.nil_append, List.forall_mem_cons]
  repeat' apply And.intro
  all_goals first
    | exact rfl
    | exact fun _ h => absurd h List.not_mem_nil

/-- After an unassigned opcode the fetch reads nothing more (R98). -/
theorem State.fetch_invalid (h : opcodeRow? (s.busRead s.pc).1 = none) :
    s.fetch = ([(s.busRead s.pc).1], (s.busRead s.pc).2) := by
  simp only [State.fetch, operandCount?, h, Option.map_none]

/-- After an assigned opcode the fetch reads as many bytes as the row's mode has (R111). -/
theorem State.fetch_row {r : Row} (h : opcodeRow? (s.busRead s.pc).1 = some r) :
    s.fetch = ((s.busRead s.pc).1 ::
        ((s.busRead s.pc).2.readBytes r.mode.operandBytes (s.pc + 1)).1,
      ((s.busRead s.pc).2.readBytes r.mode.operandBytes (s.pc + 1)).2) := by
  simp only [State.fetch, operandCount?, h, Option.map_some]

@[simp] theorem State.readBytes_zero (s : State) (a : Addr) : s.readBytes 0 a = ([], s) := rfl

@[simp] theorem State.readBytes_succ (s : State) (n : Nat) (a : Addr) :
    s.readBytes (n + 1) a = ((s.busRead a).1 :: ((s.busRead a).2.readBytes n (a + 1)).1,
      ((s.busRead a).2.readBytes n (a + 1)).2) := rfl

/-- Only an invalid opcode makes the decoder reject what the fetch read, and the latch then holds it
(R98, R111). -/
theorem State.fetch_rejected {e : DecodeError} (h : decode s.fetch.1 = .rejected e) :
    ∃ op, e = .invalidOpcode op ∧ opcodeRow? op = none ∧ s.fetch.2.latch = op := by
  simp only [State.fetch] at h ⊢
  cases hr : opcodeRow? (s.busRead s.pc).1 with
  | none =>
    simp only [operandCount?, hr, Option.map_none, decode] at h ⊢
    cases h
    exact ⟨_, rfl, hr, by simp⟩
  | some r =>
    exfalso
    simp only [operandCount?, hr, Option.map_some, decode] at h
    have hf := rowTakes_of_mem r (opcodeRow?_spec hr).1
    have hl := State.readBytes_length r.mode.operandBytes (s.busRead s.pc).2 (s.pc + 1)
    generalize ((s.busRead s.pc).2.readBytes r.mode.operandBytes (s.pc + 1)).1 = bytes at h hl
    unfold rowTakes at hf
    unfold Row.build at h
    split at h <;> (try cases h) <;> simp_all

end Sys2Proof.Machine
end

