-- ==== Sys2Proof/Laws/PerInstr.lean ====
section
/-! SUPPORT. For every instruction, as syntax: the row of the instruction table its opcode finds is its
own, with its mnemonic and mode, and its encoding is as long as its mode says (R90, R91, R94, R96). -/

namespace Sys2Proof.Laws.TableRow

/-- The table's row for the opcode of `i` is the row of `i`. -/
def Statement (i : Instr) : Prop :=
  ∃ r, opcodeRow? i.opcode = some r ∧ r.opcode = i.opcode ∧ r.mnemonic = i.mnemonic ∧
    r.mode = i.operand.mode ∧ r.base = i.base ∧ (encode i).length = i.length

/-- The statement from the opcode written out and its row. -/
theorem of_row {i : Instr} (op : Byte) {m : Mnemonic} {md : Mode} {base : Nat} {form : Form}
    (ho : i.opcode = op) (hr : opcodeRow? op = some ⟨op, m, md, base, form⟩)
    (hm : m = i.mnemonic) (hmd : md = i.operand.mode) (hl : (encode i).length = i.length) :
    Statement i := by
  subst ho
  refine ⟨_, hr, rfl, hm, hmd, ?_, hl⟩
  simp only [Instr.base, hr]

theorem ldaImm (b1 : Byte) : Statement (.ldaImm b1) := of_row 0xA9 rfl rfl rfl rfl rfl
theorem ldaZp (b1 : Byte) : Statement (.ldaZp b1) := of_row 0xA5 rfl rfl rfl rfl rfl
theorem ldaZpX (b1 : Byte) : Statement (.ldaZpX b1) := of_row 0xB5 rfl rfl rfl rfl rfl
theorem ldaAbs (w : Addr) : Statement (.ldaAbs w) := of_row 0xAD rfl rfl rfl rfl rfl
theorem ldaAbsX (w : Addr) : Statement (.ldaAbsX w) := of_row 0xBD rfl rfl rfl rfl rfl
theorem ldaAbsY (w : Addr) : Statement (.ldaAbsY w) := of_row 0xB9 rfl rfl rfl rfl rfl
theorem ldaIndX (b1 : Byte) : Statement (.ldaIndX b1) := of_row 0xA1 rfl rfl rfl rfl rfl
theorem ldaIndY (b1 : Byte) : Statement (.ldaIndY b1) := of_row 0xB1 rfl rfl rfl rfl rfl
theorem ldxImm (b1 : Byte) : Statement (.ldxImm b1) := of_row 0xA2 rfl rfl rfl rfl rfl
theorem ldxZp (b1 : Byte) : Statement (.ldxZp b1) := of_row 0xA6 rfl rfl rfl rfl rfl
theorem ldxZpY (b1 : Byte) : Statement (.ldxZpY b1) := of_row 0xB6 rfl rfl rfl rfl rfl
theorem ldxAbs (w : Addr) : Statement (.ldxAbs w) := of_row 0xAE rfl rfl rfl rfl rfl
theorem ldxAbsY (w : Addr) : Statement (.ldxAbsY w) := of_row 0xBE rfl rfl rfl rfl rfl
theorem ldyImm (b1 : Byte) : Statement (.ldyImm b1) := of_row 0xA0 rfl rfl rfl rfl rfl
theorem ldyZp (b1 : Byte) : Statement (.ldyZp b1) := of_row 0xA4 rfl rfl rfl rfl rfl
theorem ldyZpX (b1 : Byte) : Statement (.ldyZpX b1) := of_row 0xB4 rfl rfl rfl rfl rfl
theorem ldyAbs (w : Addr) : Statement (.ldyAbs w) := of_row 0xAC rfl rfl rfl rfl rfl
theorem ldyAbsX (w : Addr) : Statement (.ldyAbsX w) := of_row 0xBC rfl rfl rfl rfl rfl
theorem staZp (b1 : Byte) : Statement (.staZp b1) := of_row 0x85 rfl rfl rfl rfl rfl
theorem staZpX (b1 : Byte) : Statement (.staZpX b1) := of_row 0x95 rfl rfl rfl rfl rfl
theorem staAbs (w : Addr) : Statement (.staAbs w) := of_row 0x8D rfl rfl rfl rfl rfl
theorem staAbsX (w : Addr) : Statement (.staAbsX w) := of_row 0x9D rfl rfl rfl rfl rfl
theorem staAbsY (w : Addr) : Statement (.staAbsY w) := of_row 0x99 rfl rfl rfl rfl rfl
theorem staIndX (b1 : Byte) : Statement (.staIndX b1) := of_row 0x81 rfl rfl rfl rfl rfl
theorem staIndY (b1 : Byte) : Statement (.staIndY b1) := of_row 0x91 rfl rfl rfl rfl rfl
theorem stxZp (b1 : Byte) : Statement (.stxZp b1) := of_row 0x86 rfl rfl rfl rfl rfl
theorem stxZpY (b1 : Byte) : Statement (.stxZpY b1) := of_row 0x96 rfl rfl rfl rfl rfl
theorem stxAbs (w : Addr) : Statement (.stxAbs w) := of_row 0x8E rfl rfl rfl rfl rfl
theorem styZp (b1 : Byte) : Statement (.styZp b1) := of_row 0x84 rfl rfl rfl rfl rfl
theorem styZpX (b1 : Byte) : Statement (.styZpX b1) := of_row 0x94 rfl rfl rfl rfl rfl
theorem styAbs (w : Addr) : Statement (.styAbs w) := of_row 0x8C rfl rfl rfl rfl rfl
theorem tax : Statement .tax := of_row 0xAA rfl rfl rfl rfl rfl
theorem tay : Statement .tay := of_row 0xA8 rfl rfl rfl rfl rfl
theorem txa : Statement .txa := of_row 0x8A rfl rfl rfl rfl rfl
theorem tya : Statement .tya := of_row 0x98 rfl rfl rfl rfl rfl
theorem tsx : Statement .tsx := of_row 0xBA rfl rfl rfl rfl rfl
theorem txs : Statement .txs := of_row 0x9A rfl rfl rfl rfl rfl
theorem adcImm (b1 : Byte) : Statement (.adcImm b1) := of_row 0x69 rfl rfl rfl rfl rfl
theorem adcZp (b1 : Byte) : Statement (.adcZp b1) := of_row 0x65 rfl rfl rfl rfl rfl
theorem adcZpX (b1 : Byte) : Statement (.adcZpX b1) := of_row 0x75 rfl rfl rfl rfl rfl
theorem adcAbs (w : Addr) : Statement (.adcAbs w) := of_row 0x6D rfl rfl rfl rfl rfl
theorem adcAbsX (w : Addr) : Statement (.adcAbsX w) := of_row 0x7D rfl rfl rfl rfl rfl
theorem adcAbsY (w : Addr) : Statement (.adcAbsY w) := of_row 0x79 rfl rfl rfl rfl rfl
theorem adcIndX (b1 : Byte) : Statement (.adcIndX b1) := of_row 0x61 rfl rfl rfl rfl rfl
theorem adcIndY (b1 : Byte) : Statement (.adcIndY b1) := of_row 0x71 rfl rfl rfl rfl rfl
theorem sbcImm (b1 : Byte) : Statement (.sbcImm b1) := of_row 0xE9 rfl rfl rfl rfl rfl
theorem sbcZp (b1 : Byte) : Statement (.sbcZp b1) := of_row 0xE5 rfl rfl rfl rfl rfl
theorem sbcZpX (b1 : Byte) : Statement (.sbcZpX b1) := of_row 0xF5 rfl rfl rfl rfl rfl
theorem sbcAbs (w : Addr) : Statement (.sbcAbs w) := of_row 0xED rfl rfl rfl rfl rfl
theorem sbcAbsX (w : Addr) : Statement (.sbcAbsX w) := of_row 0xFD rfl rfl rfl rfl rfl
theorem sbcAbsY (w : Addr) : Statement (.sbcAbsY w) := of_row 0xF9 rfl rfl rfl rfl rfl
theorem sbcIndX (b1 : Byte) : Statement (.sbcIndX b1) := of_row 0xE1 rfl rfl rfl rfl rfl
theorem sbcIndY (b1 : Byte) : Statement (.sbcIndY b1) := of_row 0xF1 rfl rfl rfl rfl rfl
theorem andImm (b1 : Byte) : Statement (.andImm b1) := of_row 0x29 rfl rfl rfl rfl rfl
theorem andZp (b1 : Byte) : Statement (.andZp b1) := of_row 0x25 rfl rfl rfl rfl rfl
theorem andZpX (b1 : Byte) : Statement (.andZpX b1) := of_row 0x35 rfl rfl rfl rfl rfl
theorem andAbs (w : Addr) : Statement (.andAbs w) := of_row 0x2D rfl rfl rfl rfl rfl
theorem andAbsX (w : Addr) : Statement (.andAbsX w) := of_row 0x3D rfl rfl rfl rfl rfl
theorem andAbsY (w : Addr) : Statement (.andAbsY w) := of_row 0x39 rfl rfl rfl rfl rfl
theorem andIndX (b1 : Byte) : Statement (.andIndX b1) := of_row 0x21 rfl rfl rfl rfl rfl
theorem andIndY (b1 : Byte) : Statement (.andIndY b1) := of_row 0x31 rfl rfl rfl rfl rfl
theorem oraImm (b1 : Byte) : Statement (.oraImm b1) := of_row 0x09 rfl rfl rfl rfl rfl
theorem oraZp (b1 : Byte) : Statement (.oraZp b1) := of_row 0x05 rfl rfl rfl rfl rfl
theorem oraZpX (b1 : Byte) : Statement (.oraZpX b1) := of_row 0x15 rfl rfl rfl rfl rfl
theorem oraAbs (w : Addr) : Statement (.oraAbs w) := of_row 0x0D rfl rfl rfl rfl rfl
theorem oraAbsX (w : Addr) : Statement (.oraAbsX w) := of_row 0x1D rfl rfl rfl rfl rfl
theorem oraAbsY (w : Addr) : Statement (.oraAbsY w) := of_row 0x19 rfl rfl rfl rfl rfl
theorem oraIndX (b1 : Byte) : Statement (.oraIndX b1) := of_row 0x01 rfl rfl rfl rfl rfl
theorem oraIndY (b1 : Byte) : Statement (.oraIndY b1) := of_row 0x11 rfl rfl rfl rfl rfl
theorem eorImm (b1 : Byte) : Statement (.eorImm b1) := of_row 0x49 rfl rfl rfl rfl rfl
theorem eorZp (b1 : Byte) : Statement (.eorZp b1) := of_row 0x45 rfl rfl rfl rfl rfl
theorem eorZpX (b1 : Byte) : Statement (.eorZpX b1) := of_row 0x55 rfl rfl rfl rfl rfl
theorem eorAbs (w : Addr) : Statement (.eorAbs w) := of_row 0x4D rfl rfl rfl rfl rfl
theorem eorAbsX (w : Addr) : Statement (.eorAbsX w) := of_row 0x5D rfl rfl rfl rfl rfl
theorem eorAbsY (w : Addr) : Statement (.eorAbsY w) := of_row 0x59 rfl rfl rfl rfl rfl
theorem eorIndX (b1 : Byte) : Statement (.eorIndX b1) := of_row 0x41 rfl rfl rfl rfl rfl
theorem eorIndY (b1 : Byte) : Statement (.eorIndY b1) := of_row 0x51 rfl rfl rfl rfl rfl
theorem cmpImm (b1 : Byte) : Statement (.cmpImm b1) := of_row 0xC9 rfl rfl rfl rfl rfl
theorem cmpZp (b1 : Byte) : Statement (.cmpZp b1) := of_row 0xC5 rfl rfl rfl rfl rfl
theorem cmpZpX (b1 : Byte) : Statement (.cmpZpX b1) := of_row 0xD5 rfl rfl rfl rfl rfl
theorem cmpAbs (w : Addr) : Statement (.cmpAbs w) := of_row 0xCD rfl rfl rfl rfl rfl
theorem cmpAbsX (w : Addr) : Statement (.cmpAbsX w) := of_row 0xDD rfl rfl rfl rfl rfl
theorem cmpAbsY (w : Addr) : Statement (.cmpAbsY w) := of_row 0xD9 rfl rfl rfl rfl rfl
theorem cmpIndX (b1 : Byte) : Statement (.cmpIndX b1) := of_row 0xC1 rfl rfl rfl rfl rfl
theorem cmpIndY (b1 : Byte) : Statement (.cmpIndY b1) := of_row 0xD1 rfl rfl rfl rfl rfl
theorem cpxImm (b1 : Byte) : Statement (.cpxImm b1) := of_row 0xE0 rfl rfl rfl rfl rfl
theorem cpxZp (b1 : Byte) : Statement (.cpxZp b1) := of_row 0xE4 rfl rfl rfl rfl rfl
theorem cpxAbs (w : Addr) : Statement (.cpxAbs w) := of_row 0xEC rfl rfl rfl rfl rfl
theorem cpyImm (b1 : Byte) : Statement (.cpyImm b1) := of_row 0xC0 rfl rfl rfl rfl rfl
theorem cpyZp (b1 : Byte) : Statement (.cpyZp b1) := of_row 0xC4 rfl rfl rfl rfl rfl
theorem cpyAbs (w : Addr) : Statement (.cpyAbs w) := of_row 0xCC rfl rfl rfl rfl rfl
theorem bitZp (b1 : Byte) : Statement (.bitZp b1) := of_row 0x24 rfl rfl rfl rfl rfl
theorem bitAbs (w : Addr) : Statement (.bitAbs w) := of_row 0x2C rfl rfl rfl rfl rfl
theorem incZp (b1 : Byte) : Statement (.incZp b1) := of_row 0xE6 rfl rfl rfl rfl rfl
theorem incZpX (b1 : Byte) : Statement (.incZpX b1) := of_row 0xF6 rfl rfl rfl rfl rfl
theorem incAbs (w : Addr) : Statement (.incAbs w) := of_row 0xEE rfl rfl rfl rfl rfl
theorem incAbsX (w : Addr) : Statement (.incAbsX w) := of_row 0xFE rfl rfl rfl rfl rfl
theorem decZp (b1 : Byte) : Statement (.decZp b1) := of_row 0xC6 rfl rfl rfl rfl rfl
theorem decZpX (b1 : Byte) : Statement (.decZpX b1) := of_row 0xD6 rfl rfl rfl rfl rfl
theorem decAbs (w : Addr) : Statement (.decAbs w) := of_row 0xCE rfl rfl rfl rfl rfl
theorem decAbsX (w : Addr) : Statement (.decAbsX w) := of_row 0xDE rfl rfl rfl rfl rfl
theorem inx : Statement .inx := of_row 0xE8 rfl rfl rfl rfl rfl
theorem iny : Statement .iny := of_row 0xC8 rfl rfl rfl rfl rfl
theorem dex : Statement .dex := of_row 0xCA rfl rfl rfl rfl rfl
theorem dey : Statement .dey := of_row 0x88 rfl rfl rfl rfl rfl
theorem aslAcc : Statement .aslAcc := of_row 0x0A rfl rfl rfl rfl rfl
theorem aslZp (b1 : Byte) : Statement (.aslZp b1) := of_row 0x06 rfl rfl rfl rfl rfl
theorem aslZpX (b1 : Byte) : Statement (.aslZpX b1) := of_row 0x16 rfl rfl rfl rfl rfl
theorem aslAbs (w : Addr) : Statement (.aslAbs w) := of_row 0x0E rfl rfl rfl rfl rfl
theorem aslAbsX (w : Addr) : Statement (.aslAbsX w) := of_row 0x1E rfl rfl rfl rfl rfl
theorem lsrAcc : Statement .lsrAcc := of_row 0x4A rfl rfl rfl rfl rfl
theorem lsrZp (b1 : Byte) : Statement (.lsrZp b1) := of_row 0x46 rfl rfl rfl rfl rfl
theorem lsrZpX (b1 : Byte) : Statement (.lsrZpX b1) := of_row 0x56 rfl rfl rfl rfl rfl
theorem lsrAbs (w : Addr) : Statement (.lsrAbs w) := of_row 0x4E rfl rfl rfl rfl rfl
theorem lsrAbsX (w : Addr) : Statement (.lsrAbsX w) := of_row 0x5E rfl rfl rfl rfl rfl
theorem rolAcc : Statement .rolAcc := of_row 0x2A rfl rfl rfl rfl rfl
theorem rolZp (b1 : Byte) : Statement (.rolZp b1) := of_row 0x26 rfl rfl rfl rfl rfl
theorem rolZpX (b1 : Byte) : Statement (.rolZpX b1) := of_row 0x36 rfl rfl rfl rfl rfl
theorem rolAbs (w : Addr) : Statement (.rolAbs w) := of_row 0x2E rfl rfl rfl rfl rfl
theorem rolAbsX (w : Addr) : Statement (.rolAbsX w) := of_row 0x3E rfl rfl rfl rfl rfl
theorem rorAcc : Statement .rorAcc := of_row 0x6A rfl rfl rfl rfl rfl
theorem rorZp (b1 : Byte) : Statement (.rorZp b1) := of_row 0x66 rfl rfl rfl rfl rfl
theorem rorZpX (b1 : Byte) : Statement (.rorZpX b1) := of_row 0x76 rfl rfl rfl rfl rfl
theorem rorAbs (w : Addr) : Statement (.rorAbs w) := of_row 0x6E rfl rfl rfl rfl rfl
theorem rorAbsX (w : Addr) : Statement (.rorAbsX w) := of_row 0x7E rfl rfl rfl rfl rfl
theorem bcc (disp : Int) : Statement (.bcc disp) := of_row 0x90 rfl rfl rfl rfl rfl
theorem bcs (disp : Int) : Statement (.bcs disp) := of_row 0xB0 rfl rfl rfl rfl rfl
theorem beq (disp : Int) : Statement (.beq disp) := of_row 0xF0 rfl rfl rfl rfl rfl
theorem bne (disp : Int) : Statement (.bne disp) := of_row 0xD0 rfl rfl rfl rfl rfl
theorem bmi (disp : Int) : Statement (.bmi disp) := of_row 0x30 rfl rfl rfl rfl rfl
theorem bpl (disp : Int) : Statement (.bpl disp) := of_row 0x10 rfl rfl rfl rfl rfl
theorem bvc (disp : Int) : Statement (.bvc disp) := of_row 0x50 rfl rfl rfl rfl rfl
theorem bvs (disp : Int) : Statement (.bvs disp) := of_row 0x70 rfl rfl rfl rfl rfl
theorem jmpAbs (w : Addr) : Statement (.jmpAbs w) := of_row 0x4C rfl rfl rfl rfl rfl
theorem jmpInd (w : Addr) : Statement (.jmpInd w) := of_row 0x6C rfl rfl rfl rfl rfl
theorem jsr (w : Addr) : Statement (.jsr w) := of_row 0x20 rfl rfl rfl rfl rfl
theorem rts : Statement .rts := of_row 0x60 rfl rfl rfl rfl rfl
theorem pha : Statement .pha := of_row 0x48 rfl rfl rfl rfl rfl
theorem pla : Statement .pla := of_row 0x68 rfl rfl rfl rfl rfl
theorem php : Statement .php := of_row 0x08 rfl rfl rfl rfl rfl
theorem plp : Statement .plp := of_row 0x28 rfl rfl rfl rfl rfl
theorem clc : Statement .clc := of_row 0x18 rfl rfl rfl rfl rfl
theorem sec : Statement .sec := of_row 0x38 rfl rfl rfl rfl rfl
theorem cli : Statement .cli := of_row 0x58 rfl rfl rfl rfl rfl
theorem sei : Statement .sei := of_row 0x78 rfl rfl rfl rfl rfl
theorem clv : Statement .clv := of_row 0xB8 rfl rfl rfl rfl rfl
theorem cld : Statement .cld := of_row 0xD8 rfl rfl rfl rfl rfl
theorem sed : Statement .sed := of_row 0xF8 rfl rfl rfl rfl rfl
theorem brk : Statement .brk := of_row 0x00 rfl rfl rfl rfl rfl
theorem rti : Statement .rti := of_row 0x40 rfl rfl rfl rfl rfl
theorem nop : Statement .nop := of_row 0xEA rfl rfl rfl rfl rfl

end Sys2Proof.Laws.TableRow
end

