-- ==== Sys2Proof/Tests/Slice0.lean ====
section
/-! SUPPORT. Tests: the well-formedness checks, the decoder on words written out from the spec's
encodings, the spec's own test vectors (one step each), and for each obligation with hypotheses a state
and operands that meet them. Expected values come from `95_test_vectors.md` and the rules cited. -/

open Sys2Proof Sys2Proof.Machine Sys2Proof.Claims

set_option Elab.async false

namespace Sys2Proof.Tests

/-! ## Well-formedness (R93) -/

theorem test_wf_refuses_displacement_128 : (Instr.bcc 128).wellFormed = false := by decide
theorem test_wf_refuses_displacement_minus_129 : (Instr.bvs (-129)).wellFormed = false := by decide
theorem test_wf_admits_displacement_minus_128 : (Instr.bne (-128)).wellFormed = true := by decide
theorem test_wf_admits_displacement_127 : (Instr.beq 127).wellFormed = true := by decide

/-! ## Decoding: the opcodes of R96, operand bytes as R92 and R93 lay them out -/

theorem decodes_Load :
    decode [0xA9, 0x10] = .decoded (.ldaImm 0x10) [] ∧
    decode [0xA5, 0x21] = .decoded (.ldaZp 0x21) [] ∧
    decode [0xB5, 0x32] = .decoded (.ldaZpX 0x32) [] ∧
    decode [0xAD, 0x34, 0x12] = .decoded (.ldaAbs 0x1234) [] ∧
    decode [0xBD, 0x78, 0x56] = .decoded (.ldaAbsX 0x5678) [] ∧
    decode [0xB9, 0xBC, 0x9A] = .decoded (.ldaAbsY 0x9ABC) [] ∧
    decode [0xA1, 0x54] = .decoded (.ldaIndX 0x54) [] ∧
    decode [0xB1, 0x65] = .decoded (.ldaIndY 0x65) [] ∧
    decode [0xA2, 0x10] = .decoded (.ldxImm 0x10) [] ∧
    decode [0xA6, 0x21] = .decoded (.ldxZp 0x21) [] ∧
    decode [0xB6, 0x43] = .decoded (.ldxZpY 0x43) [] ∧
    decode [0xAE, 0x34, 0x12] = .decoded (.ldxAbs 0x1234) [] ∧
    decode [0xBE, 0xBC, 0x9A] = .decoded (.ldxAbsY 0x9ABC) [] ∧
    decode [0xA0, 0x10] = .decoded (.ldyImm 0x10) [] ∧
    decode [0xA4, 0x21] = .decoded (.ldyZp 0x21) [] ∧
    decode [0xB4, 0x32] = .decoded (.ldyZpX 0x32) [] ∧
    decode [0xAC, 0x34, 0x12] = .decoded (.ldyAbs 0x1234) [] ∧
    decode [0xBC, 0x78, 0x56] = .decoded (.ldyAbsX 0x5678) [] := by
  refine ⟨?_, ?_, ?_, ?_, ?_, ?_, ?_, ?_, ?_, ?_, ?_, ?_, ?_, ?_, ?_, ?_, ?_, ?_⟩ <;> rfl

theorem decodes_Store :
    decode [0x85, 0x21] = .decoded (.staZp 0x21) [] ∧
    decode [0x95, 0x32] = .decoded (.staZpX 0x32) [] ∧
    decode [0x8D, 0x34, 0x12] = .decoded (.staAbs 0x1234) [] ∧
    decode [0x9D, 0x78, 0x56] = .decoded (.staAbsX 0x5678) [] ∧
    decode [0x99, 0xBC, 0x9A] = .decoded (.staAbsY 0x9ABC) [] ∧
    decode [0x81, 0x54] = .decoded (.staIndX 0x54) [] ∧
    decode [0x91, 0x65] = .decoded (.staIndY 0x65) [] ∧
    decode [0x86, 0x21] = .decoded (.stxZp 0x21) [] ∧
    decode [0x96, 0x43] = .decoded (.stxZpY 0x43) [] ∧
    decode [0x8E, 0x34, 0x12] = .decoded (.stxAbs 0x1234) [] ∧
    decode [0x84, 0x21] = .decoded (.styZp 0x21) [] ∧
    decode [0x94, 0x32] = .decoded (.styZpX 0x32) [] ∧
    decode [0x8C, 0x34, 0x12] = .decoded (.styAbs 0x1234) [] := by
  refine ⟨?_, ?_, ?_, ?_, ?_, ?_, ?_, ?_, ?_, ?_, ?_, ?_, ?_⟩ <;> rfl

theorem decodes_Transfer :
    decode [0xAA] = .decoded .tax [] ∧
    decode [0xA8] = .decoded .tay [] ∧
    decode [0x8A] = .decoded .txa [] ∧
    decode [0x98] = .decoded .tya [] ∧
    decode [0xBA] = .decoded .tsx [] ∧
    decode [0x9A] = .decoded .txs [] := by
  refine ⟨?_, ?_, ?_, ?_, ?_, ?_⟩ <;> rfl

theorem decodes_Arith :
    decode [0x69, 0x10] = .decoded (.adcImm 0x10) [] ∧
    decode [0x65, 0x21] = .decoded (.adcZp 0x21) [] ∧
    decode [0x75, 0x32] = .decoded (.adcZpX 0x32) [] ∧
    decode [0x6D, 0x34, 0x12] = .decoded (.adcAbs 0x1234) [] ∧
    decode [0x7D, 0x78, 0x56] = .decoded (.adcAbsX 0x5678) [] ∧
    decode [0x79, 0xBC, 0x9A] = .decoded (.adcAbsY 0x9ABC) [] ∧
    decode [0x61, 0x54] = .decoded (.adcIndX 0x54) [] ∧
    decode [0x71, 0x65] = .decoded (.adcIndY 0x65) [] ∧
    decode [0xE9, 0x10] = .decoded (.sbcImm 0x10) [] ∧
    decode [0xE5, 0x21] = .decoded (.sbcZp 0x21) [] ∧
    decode [0xF5, 0x32] = .decoded (.sbcZpX 0x32) [] ∧
    decode [0xED, 0x34, 0x12] = .decoded (.sbcAbs 0x1234) [] ∧
    decode [0xFD, 0x78, 0x56] = .decoded (.sbcAbsX 0x5678) [] ∧
    decode [0xF9, 0xBC, 0x9A] = .decoded (.sbcAbsY 0x9ABC) [] ∧
    decode [0xE1, 0x54] = .decoded (.sbcIndX 0x54) [] ∧
    decode [0xF1, 0x65] = .decoded (.sbcIndY 0x65) [] := by
  refine ⟨?_, ?_, ?_, ?_, ?_, ?_, ?_, ?_, ?_, ?_, ?_, ?_, ?_, ?_, ?_, ?_⟩ <;> rfl

theorem decodes_Logic :
    decode [0x29, 0x10] = .decoded (.andImm 0x10) [] ∧
    decode [0x25, 0x21] = .decoded (.andZp 0x21) [] ∧
    decode [0x35, 0x32] = .decoded (.andZpX 0x32) [] ∧
    decode [0x2D, 0x34, 0x12] = .decoded (.andAbs 0x1234) [] ∧
    decode [0x3D, 0x78, 0x56] = .decoded (.andAbsX 0x5678) [] ∧
    decode [0x39, 0xBC, 0x9A] = .decoded (.andAbsY 0x9ABC) [] ∧
    decode [0x21, 0x54] = .decoded (.andIndX 0x54) [] ∧
    decode [0x31, 0x65] = .decoded (.andIndY 0x65) [] ∧
    decode [0x09, 0x10] = .decoded (.oraImm 0x10) [] ∧
    decode [0x05, 0x21] = .decoded (.oraZp 0x21) [] ∧
    decode [0x15, 0x32] = .decoded (.oraZpX 0x32) [] ∧
    decode [0x0D, 0x34, 0x12] = .decoded (.oraAbs 0x1234) [] ∧
    decode [0x1D, 0x78, 0x56] = .decoded (.oraAbsX 0x5678) [] ∧
    decode [0x19, 0xBC, 0x9A] = .decoded (.oraAbsY 0x9ABC) [] ∧
    decode [0x01, 0x54] = .decoded (.oraIndX 0x54) [] ∧
    decode [0x11, 0x65] = .decoded (.oraIndY 0x65) [] ∧
    decode [0x49, 0x10] = .decoded (.eorImm 0x10) [] ∧
    decode [0x45, 0x21] = .decoded (.eorZp 0x21) [] ∧
    decode [0x55, 0x32] = .decoded (.eorZpX 0x32) [] ∧
    decode [0x4D, 0x34, 0x12] = .decoded (.eorAbs 0x1234) [] ∧
    decode [0x5D, 0x78, 0x56] = .decoded (.eorAbsX 0x5678) [] ∧
    decode [0x59, 0xBC, 0x9A] = .decoded (.eorAbsY 0x9ABC) [] ∧
    decode [0x41, 0x54] = .decoded (.eorIndX 0x54) [] ∧
    decode [0x51, 0x65] = .decoded (.eorIndY 0x65) [] := by
  refine ⟨?_, ?_, ?_, ?_, ?_, ?_, ?_, ?_, ?_, ?_, ?_, ?_, ?_, ?_, ?_, ?_, ?_, ?_, ?_, ?_, ?_, ?_, ?_, ?_⟩ <;> rfl

theorem decodes_Compare :
    decode [0xC9, 0x10] = .decoded (.cmpImm 0x10) [] ∧
    decode [0xC5, 0x21] = .decoded (.cmpZp 0x21) [] ∧
    decode [0xD5, 0x32] = .decoded (.cmpZpX 0x32) [] ∧
    decode [0xCD, 0x34, 0x12] = .decoded (.cmpAbs 0x1234) [] ∧
    decode [0xDD, 0x78, 0x56] = .decoded (.cmpAbsX 0x5678) [] ∧
    decode [0xD9, 0xBC, 0x9A] = .decoded (.cmpAbsY 0x9ABC) [] ∧
    decode [0xC1, 0x54] = .decoded (.cmpIndX 0x54) [] ∧
    decode [0xD1, 0x65] = .decoded (.cmpIndY 0x65) [] ∧
    decode [0xE0, 0x10] = .decoded (.cpxImm 0x10) [] ∧
    decode [0xE4, 0x21] = .decoded (.cpxZp 0x21) [] ∧
    decode [0xEC, 0x34, 0x12] = .decoded (.cpxAbs 0x1234) [] ∧
    decode [0xC0, 0x10] = .decoded (.cpyImm 0x10) [] ∧
    decode [0xC4, 0x21] = .decoded (.cpyZp 0x21) [] ∧
    decode [0xCC, 0x34, 0x12] = .decoded (.cpyAbs 0x1234) [] ∧
    decode [0x24, 0x21] = .decoded (.bitZp 0x21) [] ∧
    decode [0x2C, 0x34, 0x12] = .decoded (.bitAbs 0x1234) [] := by
  refine ⟨?_, ?_, ?_, ?_, ?_, ?_, ?_, ?_, ?_, ?_, ?_, ?_, ?_, ?_, ?_, ?_⟩ <;> rfl

theorem decodes_IncDec :
    decode [0xE6, 0x21] = .decoded (.incZp 0x21) [] ∧
    decode [0xF6, 0x32] = .decoded (.incZpX 0x32) [] ∧
    decode [0xEE, 0x34, 0x12] = .decoded (.incAbs 0x1234) [] ∧
    decode [0xFE, 0x78, 0x56] = .decoded (.incAbsX 0x5678) [] ∧
    decode [0xC6, 0x21] = .decoded (.decZp 0x21) [] ∧
    decode [0xD6, 0x32] = .decoded (.decZpX 0x32) [] ∧
    decode [0xCE, 0x34, 0x12] = .decoded (.decAbs 0x1234) [] ∧
    decode [0xDE, 0x78, 0x56] = .decoded (.decAbsX 0x5678) [] ∧
    decode [0xE8] = .decoded .inx [] ∧
    decode [0xC8] = .decoded .iny [] ∧
    decode [0xCA] = .decoded .dex [] ∧
    decode [0x88] = .decoded .dey [] := by
  refine ⟨?_, ?_, ?_, ?_, ?_, ?_, ?_, ?_, ?_, ?_, ?_, ?_⟩ <;> rfl

theorem decodes_Shift :
    decode [0x0A] = .decoded .aslAcc [] ∧
    decode [0x06, 0x21] = .decoded (.aslZp 0x21) [] ∧
    decode [0x16, 0x32] = .decoded (.aslZpX 0x32) [] ∧
    decode [0x0E, 0x34, 0x12] = .decoded (.aslAbs 0x1234) [] ∧
    decode [0x1E, 0x78, 0x56] = .decoded (.aslAbsX 0x5678) [] ∧
    decode [0x4A] = .decoded .lsrAcc [] ∧
    decode [0x46, 0x21] = .decoded (.lsrZp 0x21) [] ∧
    decode [0x56, 0x32] = .decoded (.lsrZpX 0x32) [] ∧
    decode [0x4E, 0x34, 0x12] = .decoded (.lsrAbs 0x1234) [] ∧
    decode [0x5E, 0x78, 0x56] = .decoded (.lsrAbsX 0x5678) [] ∧
    decode [0x2A] = .decoded .rolAcc [] ∧
    decode [0x26, 0x21] = .decoded (.rolZp 0x21) [] ∧
    decode [0x36, 0x32] = .decoded (.rolZpX 0x32) [] ∧
    decode [0x2E, 0x34, 0x12] = .decoded (.rolAbs 0x1234) [] ∧
    decode [0x3E, 0x78, 0x56] = .decoded (.rolAbsX 0x5678) [] ∧
    decode [0x6A] = .decoded .rorAcc [] ∧
    decode [0x66, 0x21] = .decoded (.rorZp 0x21) [] ∧
    decode [0x76, 0x32] = .decoded (.rorZpX 0x32) [] ∧
    decode [0x6E, 0x34, 0x12] = .decoded (.rorAbs 0x1234) [] ∧
    decode [0x7E, 0x78, 0x56] = .decoded (.rorAbsX 0x5678) [] := by
  refine ⟨?_, ?_, ?_, ?_, ?_, ?_, ?_, ?_, ?_, ?_, ?_, ?_, ?_, ?_, ?_, ?_, ?_, ?_, ?_, ?_⟩ <;> rfl

theorem decodes_Branch :
    decode [0x90, 0xFD] = .decoded (.bcc (-3)) [] ∧
    decode [0xB0, 0xFD] = .decoded (.bcs (-3)) [] ∧
    decode [0xF0, 0xFD] = .decoded (.beq (-3)) [] ∧
    decode [0xD0, 0xFD] = .decoded (.bne (-3)) [] ∧
    decode [0x30, 0xFD] = .decoded (.bmi (-3)) [] ∧
    decode [0x10, 0xFD] = .decoded (.bpl (-3)) [] ∧
    decode [0x50, 0xFD] = .decoded (.bvc (-3)) [] ∧
    decode [0x70, 0xFD] = .decoded (.bvs (-3)) [] := by
  refine ⟨?_, ?_, ?_, ?_, ?_, ?_, ?_, ?_⟩ <;> rfl

theorem decodes_Jump :
    decode [0x4C, 0x34, 0x12] = .decoded (.jmpAbs 0x1234) [] ∧
    decode [0x6C, 0xF0, 0xDE] = .decoded (.jmpInd 0xDEF0) [] ∧
    decode [0x20, 0x34, 0x12] = .decoded (.jsr 0x1234) [] ∧
    decode [0x60] = .decoded .rts [] := by
  refine ⟨?_, ?_, ?_, ?_⟩ <;> rfl

theorem decodes_Stack :
    decode [0x48] = .decoded .pha [] ∧
    decode [0x68] = .decoded .pla [] ∧
    decode [0x08] = .decoded .php [] ∧
    decode [0x28] = .decoded .plp [] := by
  refine ⟨?_, ?_, ?_, ?_⟩ <;> rfl

theorem decodes_FlagOps :
    decode [0x18] = .decoded .clc [] ∧
    decode [0x38] = .decoded .sec [] ∧
    decode [0x58] = .decoded .cli [] ∧
    decode [0x78] = .decoded .sei [] ∧
    decode [0xB8] = .decoded .clv [] ∧
    decode [0xD8] = .decoded .cld [] ∧
    decode [0xF8] = .decoded .sed [] := by
  refine ⟨?_, ?_, ?_, ?_, ?_, ?_, ?_⟩ <;> rfl

theorem decodes_System :
    decode [0x00] = .decoded .brk [] ∧
    decode [0x40] = .decoded .rti [] ∧
    decode [0xEA] = .decoded .nop [] := by
  refine ⟨?_, ?_, ?_⟩ <;> rfl

theorem decode_refuses_02 : decode [0x02, 0xFF] = .rejected (.invalidOpcode 0x02) := rfl
theorem decode_refuses_FF : decode [0xFF] = .rejected (.invalidOpcode 0xFF) := rfl
theorem decode_refuses_short : decode [0xAD, 0x34] = .rejected (.truncated 0xAD) := rfl
theorem decode_refuses_nothing : decode [] = .rejected .noBytes := rfl

/-- `LDA $1234` as one number: bit 0 is bit 0 of the opcode. -/
theorem test_decodeTableWord : decodeTableWord 24 0x1234AD = some (.ldaAbs 0x1234) := by
  decide +kernel

/-- Bits above `nbits` are 0: the operand byte is not taken from them. -/
theorem test_decodeTableWord_short : decodeTableWord 8 0x77A9 = some (.ldaImm 0x00) := by
  decide +kernel

/-! ## One step on a small state -/

/-- The common start state of the vectors: bytes at `pc0`, further cells as listed. -/
def start (pc0 : Addr) (bytes : List Byte) (cells : List (Addr × Byte)) : State :=
  cells.foldl (fun s c => s.poke c.1 c.2) (({ State.reset with pc := pc0 }).pokeBytes bytes pc0)

/-- The same with `JMP_IND_WRAP` false. -/
def noWrap (s : State) : State := { s with cfg := { s.cfg with jmpIndWrap := false } }

/-- One step ends with these registers, this cycle count and these bytes in memory. -/
def ends (s : State) (pc : Addr) (a x y sp p : Byte) (cycles : Nat) (cells : List (Addr × Byte)) :
    Bool :=
  match step s with
  | .next t => t.pc == pc && t.a == a && t.x == x && t.y == y && t.sp == sp && t.p == p &&
      t.cpuCycles == cycles && t.halted.isNone && cells.all fun c => t.peek c.1 == some c.2
  | .fault _ => false
  | .refused _ => false

/-- A condition on the state after one step. -/
def after (s : State) (f : State → Bool) : Bool :=
  match step s with
  | .next t => f t
  | .fault _ => false
  | .refused _ => false

/-! ### Load -/

/-- The vectors the comments name. -/
theorem test_vectors_Load :
    -- V1: LDA #$80.
    ends (start 0x8000 [0xA9, 0x80] [])
      0x8002 0x80 0x00 0x00 0xFF 0x80 2 [] = true ∧
    -- V2: LDA $10.
    ends (start 0x8000 [0xA5, 0x10] [(0x0010, 0x7F)])
      0x8002 0x7F 0x00 0x00 0xFF 0x00 3 [] = true ∧
    -- V3: LDA $F0,X.
    ends { start 0x8000 [0xB5, 0xF0] [(0x0010, 0x55), (0x0110, 0xAA)] with x := 0x20 }
      0x8002 0x55 0x20 0x00 0xFF 0x00 4 [] = true ∧
    -- V4: LDX $FF,Y.
    ends { start 0x8000 [0xB6, 0xFF] [(0x0001, 0x33), (0x0101, 0x44)] with y := 0x02 }
      0x8002 0x00 0x33 0x02 0xFF 0x00 4 [] = true ∧
    -- V5: LDA $0234.
    ends (start 0x8000 [0xAD, 0x34, 0x02] [(0x0234, 0x00)])
      0x8003 0x00 0x00 0x00 0xFF 0x02 4 [] = true ∧
    -- V6: LDA $12FF,X.
    ends { start 0x8000 [0xBD, 0xFF, 0x12] [(0x1300, 0x99)] with x := 0x01 }
      0x8003 0x99 0x01 0x00 0xFF 0x80 5 [] = true ∧
    -- V7: LDA $1200,X.
    ends { start 0x8000 [0xBD, 0x00, 0x12] [(0x1201, 0x11)] with x := 0x01 }
      0x8003 0x11 0x01 0x00 0xFF 0x00 4 [] = true ∧
    -- V8: LDA $12FF,Y.
    ends { start 0x8000 [0xB9, 0xFF, 0x12] [(0x13FE, 0x22)] with y := 0xFF }
      0x8003 0x22 0x00 0xFF 0xFF 0x00 5 [] = true ∧
    -- V10: LDA ($20,X).
    ends { start 0x8000 [0xA1, 0x20] [(0x0024, 0x00), (0x0025, 0x03), (0x0300, 0xC3)] with x := 0x04 }
      0x8002 0xC3 0x04 0x00 0xFF 0x80 6 [] = true ∧
    -- V11: LDA ($FE,X).
    ends { start 0x8000 [0xA1, 0xFE] [(0x0000, 0x03), (0x00FF, 0x40), (0x0100, 0x06), (0x0340, 0x77)] with x := 0x01 }
      0x8002 0x77 0x01 0x00 0xFF 0x00 6 [] = true ∧
    -- V12: LDA ($40),Y.
    ends { start 0x8000 [0xB1, 0x40] [(0x0040, 0x00), (0x0041, 0x03), (0x0310, 0x01)] with y := 0x10 }
      0x8002 0x01 0x00 0x10 0xFF 0x00 5 [] = true ∧
    -- V13: LDA ($40),Y.
    ends { start 0x8000 [0xB1, 0x40] [(0x0040, 0xF8), (0x0041, 0x03), (0x0408, 0x81)] with y := 0x10 }
      0x8002 0x81 0x00 0x10 0xFF 0x80 6 [] = true ∧
    -- V30: LDA #$00.
    ends { start 0x8000 [0xA9, 0x00] [] with a := 0x55, p := 0x80 }
      0x8002 0x00 0x00 0x00 0xFF 0x02 2 [] = true ∧
    -- V31: LDX #$FF.
    ends (start 0x8000 [0xA2, 0xFF] [])
      0x8002 0x00 0xFF 0x00 0xFF 0x80 2 [] = true ∧
    -- V32: LDY $0300.
    ends { start 0x8000 [0xAC, 0x00, 0x03] [(0x0300, 0x7F)] with p := 0x82 }
      0x8003 0x00 0x00 0x7F 0xFF 0x00 4 [] = true := by decide +kernel

/-! ### Store -/

/-- The vectors the comments name. -/
theorem test_vectors_Store :
    -- V15: STA $12FF,X.
    ends { start 0x8000 [0x9D, 0xFF, 0x12] [] with a := 0x5A, x := 0x01 }
      0x8003 0x5A 0x01 0x00 0xFF 0x00 6 [(0x1300, 0x5A), (0x0300, 0x5A)] = true ∧
    -- V16: STA $1200,X.
    ends { start 0x8000 [0x9D, 0x00, 0x12] [] with a := 0x5A, x := 0x01 }
      0x8003 0x5A 0x01 0x00 0xFF 0x00 5 [(0x1201, 0x5A)] = true ∧
    -- V18: STA ($40),Y.
    ends { start 0x8000 [0x91, 0x40] [(0x0040, 0xF8), (0x0041, 0x03)] with a := 0x77, y := 0x10 }
      0x8002 0x77 0x00 0x10 0xFF 0x00 7 [(0x0408, 0x77)] = true ∧
    -- V33: STA $10.
    ends { start 0x8000 [0x85, 0x10] [] with a := 0x00, p := 0x80 }
      0x8002 0x00 0x00 0x00 0xFF 0x80 3 [(0x0010, 0x00)] = true ∧
    -- V34: STX $10,Y.
    ends { start 0x8000 [0x96, 0x10] [(0x0108, 0x00)] with x := 0x80, y := 0xF8 }
      0x8002 0x00 0x80 0xF8 0xFF 0x00 4 [(0x0008, 0x80), (0x0108, 0x00)] = true ∧
    -- V35: STY $8000.
    ends { start 0x8000 [0x8C, 0x00, 0x80] [] with y := 0x12 }
      0x8003 0x00 0x00 0x12 0xFF 0x00 4 [(0x8000, 0x8C)] = true := by decide +kernel

/-! ### Transfer -/

/-- The vectors the comments name. -/
theorem test_vectors_Transfer :
    -- V36: TAX.
    ends { start 0x8000 [0xAA] [] with a := 0x80 }
      0x8001 0x80 0x80 0x00 0xFF 0x80 2 [] = true ∧
    -- V37: TAY.
    ends { start 0x8000 [0xA8] [] with a := 0x00, y := 0x33 }
      0x8001 0x00 0x00 0x00 0xFF 0x02 2 [] = true ∧
    -- V38: TXA.
    ends { start 0x8000 [0x8A] [] with a := 0xFF, x := 0x7F, p := 0x80 }
      0x8001 0x7F 0x7F 0x00 0xFF 0x00 2 [] = true ∧
    -- V39: TYA.
    ends { start 0x8000 [0x98] [] with a := 0x01, y := 0x00 }
      0x8001 0x00 0x00 0x00 0xFF 0x02 2 [] = true ∧
    -- V40: TSX.
    ends { start 0x8000 [0xBA] [] with sp := 0xFD }
      0x8001 0x00 0xFD 0x00 0xFD 0x80 2 [] = true ∧
    -- V41: TXS.
    ends { start 0x8000 [0x9A] [] with x := 0x00, sp := 0xFF, p := 0x80 }
      0x8001 0x00 0x00 0x00 0x00 0x80 2 [] = true := by decide +kernel

/-! ### Logic -/

/-- The vectors the comments name. -/
theorem test_vectors_Logic :
    -- V80: AND #$0F.
    ends { start 0x8000 [0x29, 0x0F] [] with a := 0xF0, p := 0xC1 }
      0x8002 0x00 0x00 0x00 0xFF 0x43 2 [] = true ∧
    -- V81: AND #$80.
    ends { start 0x8000 [0x29, 0x80] [] with a := 0xFF }
      0x8002 0x80 0x00 0x00 0xFF 0x80 2 [] = true ∧
    -- V82: ORA #$80.
    ends { start 0x8000 [0x09, 0x80] [] with a := 0x01 }
      0x8002 0x81 0x00 0x00 0xFF 0x80 2 [] = true ∧
    -- V83: ORA #$00.
    ends { start 0x8000 [0x09, 0x00] [] with a := 0x00, p := 0x80 }
      0x8002 0x00 0x00 0x00 0xFF 0x02 2 [] = true ∧
    -- V84: EOR #$FF.
    ends { start 0x8000 [0x49, 0xFF] [] with a := 0xFF }
      0x8002 0x00 0x00 0x00 0xFF 0x02 2 [] = true ∧
    -- V85: EOR #$FF.
    ends { start 0x8000 [0x49, 0xFF] [] with a := 0x0F }
      0x8002 0xF0 0x00 0x00 0xFF 0x80 2 [] = true := by decide +kernel

/-! ### Compare -/

/-- The vectors the comments name. -/
theorem test_vectors_Compare :
    -- V86: CMP #$40.
    ends { start 0x8000 [0xC9, 0x40] [] with a := 0x40, p := 0x40 }
      0x8002 0x40 0x00 0x00 0xFF 0x43 2 [] = true ∧
    -- V87: CMP #$41.
    ends { start 0x8000 [0xC9, 0x41] [] with a := 0x40 }
      0x8002 0x40 0x00 0x00 0xFF 0x80 2 [] = true ∧
    -- V90: CPX #$10.
    ends { start 0x8000 [0xE0, 0x10] [] with x := 0x20 }
      0x8002 0x00 0x20 0x00 0xFF 0x01 2 [] = true ∧
    -- V91: CPY $10.
    ends { start 0x8000 [0xC4, 0x10] [(0x0010, 0x01)] with y := 0x00 }
      0x8002 0x00 0x00 0x00 0xFF 0x80 3 [] = true ∧
    -- V92: BIT $10.
    ends { start 0x8000 [0x24, 0x10] [(0x0010, 0xC0)] with a := 0x01 }
      0x8002 0x01 0x00 0x00 0xFF 0xC2 3 [] = true ∧
    -- V93: BIT $10.
    ends { start 0x8000 [0x24, 0x10] [(0x0010, 0x3F)] with a := 0xFF, p := 0xC2 }
      0x8002 0xFF 0x00 0x00 0xFF 0x00 3 [] = true ∧
    -- V94: BIT $0300.
    ends { start 0x8000 [0x2C, 0x00, 0x03] [(0x0300, 0x40)] with a := 0x40 }
      0x8003 0x40 0x00 0x00 0xFF 0x40 4 [] = true := by decide +kernel

/-! ### IncDec -/

/-- The vectors the comments name. -/
theorem test_vectors_IncDec :
    -- V17: INC $12FF,X.
    ends { start 0x8000 [0xFE, 0xFF, 0x12] [(0x1300, 0x41)] with x := 0x01 }
      0x8003 0x00 0x01 0x00 0xFF 0x00 8 [(0x1300, 0x42)] = true ∧
    -- V100: INC $10.
    ends { start 0x8000 [0xE6, 0x10] [(0x0010, 0xFF)] with p := 0x01 }
      0x8002 0x00 0x00 0x00 0xFF 0x03 5 [(0x0010, 0x00)] = true ∧
    -- V101: INC $10.
    ends { start 0x8000 [0xE6, 0x10] [(0x0010, 0x7F)] with p := 0x40 }
      0x8002 0x00 0x00 0x00 0xFF 0xC0 5 [(0x0010, 0x80)] = true ∧
    -- V102: DEC $0200.
    ends (start 0x8000 [0xCE, 0x00, 0x02] [(0x0200, 0x00)])
      0x8003 0x00 0x00 0x00 0xFF 0x80 6 [(0x0200, 0xFF)] = true ∧
    -- V103: DEC $10,X.
    ends { start 0x8000 [0xD6, 0x10] [(0x0005, 0x01)] with x := 0xF5 }
      0x8002 0x00 0xF5 0x00 0xFF 0x02 6 [(0x0005, 0x00)] = true ∧
    -- V104: INX.
    ends { start 0x8000 [0xE8] [] with x := 0xFF }
      0x8001 0x00 0x00 0x00 0xFF 0x02 2 [] = true ∧
    -- V105: INY.
    ends { start 0x8000 [0xC8] [] with y := 0x7F }
      0x8001 0x00 0x00 0x80 0xFF 0x80 2 [] = true ∧
    -- V106: DEX.
    ends { start 0x8000 [0xCA] [] with x := 0x00 }
      0x8001 0x00 0xFF 0x00 0xFF 0x80 2 [] = true ∧
    -- V107: DEY.
    ends { start 0x8000 [0x88] [] with y := 0x01 }
      0x8001 0x00 0x00 0x00 0xFF 0x02 2 [] = true ∧
    -- V119: INC $8000.
    ends (start 0x8000 [0xEE, 0x00, 0x80] [])
      0x8003 0x00 0x00 0x00 0xFF 0x80 6 [(0x8000, 0xEE)] = true := by decide +kernel

/-! ### Shift -/

/-- The vectors the comments name. -/
theorem test_vectors_Shift :
    -- V108: ASL A.
    ends { start 0x8000 [0x0A] [] with a := 0x81 }
      0x8001 0x02 0x00 0x00 0xFF 0x01 2 [] = true ∧
    -- V109: ASL A.
    ends { start 0x8000 [0x0A] [] with a := 0x80, p := 0x01 }
      0x8001 0x00 0x00 0x00 0xFF 0x03 2 [] = true ∧
    -- V110: ASL $10.
    ends (start 0x8000 [0x06, 0x10] [(0x0010, 0x40)])
      0x8002 0x00 0x00 0x00 0xFF 0x80 5 [(0x0010, 0x80)] = true ∧
    -- V111: LSR A.
    ends { start 0x8000 [0x4A] [] with a := 0x01, p := 0x80 }
      0x8001 0x00 0x00 0x00 0xFF 0x03 2 [] = true ∧
    -- V112: LSR $0300.
    ends { start 0x8000 [0x4E, 0x00, 0x03] [(0x0300, 0xFE)] with p := 0x01 }
      0x8003 0x00 0x00 0x00 0xFF 0x00 6 [(0x0300, 0x7F)] = true ∧
    -- V113: ROL A.
    ends { start 0x8000 [0x2A] [] with a := 0x40, p := 0x01 }
      0x8001 0x81 0x00 0x00 0xFF 0x80 2 [] = true ∧
    -- V114: ROL A.
    ends { start 0x8000 [0x2A] [] with a := 0x80, p := 0x00 }
      0x8001 0x00 0x00 0x00 0xFF 0x03 2 [] = true ∧
    -- V115: ROL $10,X.
    ends { start 0x8000 [0x36, 0x10] [(0x0011, 0xFF)] with x := 0x01, p := 0x01 }
      0x8002 0x00 0x01 0x00 0xFF 0x81 6 [(0x0011, 0xFF)] = true ∧
    -- V116: ROR A.
    ends { start 0x8000 [0x6A] [] with a := 0x01, p := 0x01 }
      0x8001 0x80 0x00 0x00 0xFF 0x81 2 [] = true ∧
    -- V117: ROR A.
    ends { start 0x8000 [0x6A] [] with a := 0x01, p := 0x00 }
      0x8001 0x00 0x00 0x00 0xFF 0x03 2 [] = true ∧
    -- V118: ROR $10.
    ends { start 0x8000 [0x66, 0x10] [(0x0010, 0x00)] with p := 0x01 }
      0x8002 0x00 0x00 0x00 0xFF 0x80 5 [(0x0010, 0x80)] = true := by decide +kernel

/-! ### Branch -/

/-- The vectors the comments name. -/
theorem test_vectors_Branch :
    -- V130: BCC +5.
    ends { start 0x8000 [0x90, 0x05] [] with p := 0x00 }
      0x8007 0x00 0x00 0x00 0xFF 0x00 3 [] = true ∧
    -- V131: BCC +5.
    ends { start 0x8000 [0x90, 0x05] [] with p := 0x01 }
      0x8002 0x00 0x00 0x00 0xFF 0x01 2 [] = true ∧
    -- V132: BCS +$20.
    ends { start 0x80F0 [0xB0, 0x20] [] with p := 0x01 }
      0x8112 0x00 0x00 0x00 0xFF 0x01 4 [] = true ∧
    -- V133: BEQ -4.
    ends { start 0x8010 [0xF0, 0xFC] [] with p := 0x02 }
      0x800E 0x00 0x00 0x00 0xFF 0x02 3 [] = true ∧
    -- V134: BNE -3.
    ends { start 0x8005 [0xD0, 0xFD] [] with p := 0x00 }
      0x8004 0x00 0x00 0x00 0xFF 0x00 3 [] = true ∧
    -- V135: BNE -3.
    ends { start 0x8005 [0xD0, 0xFD] [] with p := 0x02 }
      0x8007 0x00 0x00 0x00 0xFF 0x02 2 [] = true ∧
    -- V136: BMI -128.
    ends { start 0x8000 [0x30, 0x80] [] with p := 0x80 }
      0x7F82 0x00 0x00 0x00 0xFF 0x80 4 [] = true ∧
    -- V137: BPL -5.
    ends { start 0x8003 [0x10, 0xFB] [] with p := 0x00 }
      0x8000 0x00 0x00 0x00 0xFF 0x00 3 [] = true ∧
    -- V138: BVC +16.
    ends { start 0xFFFD [0x50, 0x10] [] with p := 0x00 }
      0x000F 0x00 0x00 0x00 0xFF 0x00 4 [] = true ∧
    -- V139: BVS +127.
    ends { start 0x8000 [0x70, 0x7F] [] with p := 0x00 }
      0x8002 0x00 0x00 0x00 0xFF 0x00 2 [] = true ∧
    -- V140: BVS +127.
    ends { start 0x8000 [0x70, 0x7F] [] with p := 0x40 }
      0x8081 0x00 0x00 0x00 0xFF 0x40 3 [] = true ∧
    -- V141: BEQ +0.
    ends { start 0x8000 [0xF0, 0x00] [] with p := 0x02 }
      0x8002 0x00 0x00 0x00 0xFF 0x02 3 [] = true := by decide +kernel

/-! ### Jump -/

/-- The vectors the comments name. -/
theorem test_vectors_Jump :
    -- V19: JMP ($0200).
    ends (start 0x8000 [0x6C, 0x00, 0x02] [(0x0200, 0x34), (0x0201, 0x12)])
      0x1234 0x00 0x00 0x00 0xFF 0x00 5 [] = true ∧
    -- V20: JMP ($02FF).
    ends (start 0x8000 [0x6C, 0xFF, 0x02] [(0x0200, 0x12), (0x02FF, 0x34), (0x0300, 0x56)])
      0x1234 0x00 0x00 0x00 0xFF 0x00 5 [] = true ∧
    -- V150: JMP $9000.
    ends (start 0x8000 [0x4C, 0x00, 0x90] [])
      0x9000 0x00 0x00 0x00 0xFF 0x00 3 [] = true ∧
    -- V151: JMP $8000.
    ends (start 0x8000 [0x4C, 0x00, 0x80] [])
      0x8000 0x00 0x00 0x00 0xFF 0x00 3 [] = true ∧
    -- V152: JSR $8010.
    ends (start 0x8000 [0x20, 0x10, 0x80] [])
      0x8010 0x00 0x00 0x00 0xFD 0x00 6 [(0x01FF, 0x80), (0x01FE, 0x02)] = true ∧
    -- V154: JSR $9000.
    ends { start 0x80FE [0x20, 0x00, 0x90] [] with sp := 0x00 }
      0x9000 0x00 0x00 0x00 0xFE 0x00 6 [(0x0100, 0x81), (0x01FF, 0x00)] = true ∧
    -- V155: RTS.
    ends { start 0x8000 [0x60] [(0x01FE, 0xFF), (0x01FF, 0xFF)] with sp := 0xFD }
      0x0000 0x00 0x00 0x00 0xFF 0x00 6 [] = true ∧
    -- V156: RTS.
    ends { start 0x8000 [0x60] [(0x0100, 0x33), (0x0101, 0x12)] with sp := 0xFF }
      0x1234 0x00 0x00 0x00 0x01 0x00 6 [] = true := by decide +kernel

/-! ### Stack -/

/-- The vectors the comments name. -/
theorem test_vectors_Stack :
    -- V160: PHA.
    ends { start 0x8000 [0x48] [] with a := 0x42 }
      0x8001 0x42 0x00 0x00 0xFE 0x00 3 [(0x01FF, 0x42)] = true ∧
    -- V161: PHA.
    ends { start 0x8000 [0x48] [] with a := 0x42, sp := 0x00 }
      0x8001 0x42 0x00 0x00 0xFF 0x00 3 [(0x0100, 0x42)] = true ∧
    -- V162: PLA.
    ends { start 0x8000 [0x68] [(0x01FF, 0x00)] with a := 0x55, sp := 0xFE }
      0x8001 0x00 0x00 0x00 0xFF 0x02 4 [] = true ∧
    -- V163: PLA.
    ends { start 0x8000 [0x68] [(0x0100, 0x80)] with sp := 0xFF }
      0x8001 0x80 0x00 0x00 0x00 0x80 4 [] = true ∧
    -- V164: PHP.
    ends { start 0x8000 [0x08] [] with p := 0x81 }
      0x8001 0x00 0x00 0x00 0xFE 0x81 3 [(0x01FF, 0xB1)] = true ∧
    -- V165: PHP.
    ends (start 0x8000 [0x08] [])
      0x8001 0x00 0x00 0x00 0xFE 0x00 3 [(0x01FF, 0x30)] = true ∧
    -- V166: PLP.
    ends { start 0x8000 [0x28] [(0x01FF, 0xB1)] with sp := 0xFE }
      0x8001 0x00 0x00 0x00 0xFF 0x81 4 [] = true ∧
    -- V167: PLP.
    ends { start 0x8000 [0x28] [(0x01FF, 0xFF)] with sp := 0xFE }
      0x8001 0x00 0x00 0x00 0xFF 0xCF 4 [] = true := by decide +kernel

/-! ### FlagOps -/

/-- The vectors the comments name. -/
theorem test_vectors_FlagOps :
    -- V169: CLC.
    ends { start 0x8000 [0x18] [] with p := 0xC3 }
      0x8001 0x00 0x00 0x00 0xFF 0xC2 2 [] = true ∧
    -- V170: SEC.
    ends { start 0x8000 [0x38] [] with p := 0x00 }
      0x8001 0x00 0x00 0x00 0xFF 0x01 2 [] = true ∧
    -- V171: CLI.
    ends { start 0x8000 [0x58] [] with p := 0x04 }
      0x8001 0x00 0x00 0x00 0xFF 0x00 2 [] = true ∧
    -- V172: SEI.
    ends { start 0x8000 [0x78] [] with p := 0x00 }
      0x8001 0x00 0x00 0x00 0xFF 0x04 2 [] = true ∧
    -- V173: CLV.
    ends { start 0x8000 [0xB8] [] with p := 0x40 }
      0x8001 0x00 0x00 0x00 0xFF 0x00 2 [] = true ∧
    -- V174: CLD.
    ends { start 0x8000 [0xD8] [] with p := 0x08 }
      0x8001 0x00 0x00 0x00 0xFF 0x00 2 [] = true ∧
    -- V175: SED.
    ends { start 0x8000 [0xF8] [] with p := 0x00 }
      0x8001 0x00 0x00 0x00 0xFF 0x08 2 [] = true ∧
    -- V176: CLC.
    ends { start 0x8000 [0x18] [] with p := 0x00 }
      0x8001 0x00 0x00 0x00 0xFF 0x00 2 [] = true ∧
    -- V177: SEI.
    ends { start 0x8000 [0x78] [] with p := 0xCB }
      0x8001 0x00 0x00 0x00 0xFF 0xCF 2 [] = true := by decide +kernel

/-! ### System -/

/-- The vectors the comments name. -/
theorem test_vectors_System :
    -- V178: NOP.
    ends { start 0x8000 [0xEA] [] with a := 0x01, x := 0x02, y := 0x03, p := 0xCF }
      0x8001 0x01 0x02 0x03 0xFF 0xCF 2 [] = true ∧
    -- V179: BRK.
    ends { start 0x8000 [0x00] [(0xFFFE, 0x00), (0xFFFF, 0x90)] with p := 0x01 }
      0x9000 0x00 0x00 0x00 0xFC 0x05 7 [(0x01FF, 0x80), (0x01FE, 0x02), (0x01FD, 0x31)] = true ∧
    -- V181: BRK.
    ends { start 0x80FF [0x00] [(0xFFFE, 0x34), (0xFFFF, 0x92)] with sp := 0x01, p := 0xC4 }
      0x9234 0x00 0x00 0x00 0xFE 0xC4 7 [(0x0101, 0x81), (0x0100, 0x01), (0x01FF, 0xF4)] = true ∧
    -- V182: RTI.
    ends { start 0x8000 [0x40] [(0x01FD, 0xFF), (0x01FE, 0x78), (0x01FF, 0x56)] with sp := 0xFC, p := 0x04 }
      0x5678 0x00 0x00 0x00 0xFF 0xCF 6 [] = true := by decide +kernel

/-- V50 to V75: ADC immediate, as (`A`, operand, `P`, new `A`, new `P`) (R161). -/
def adcVectors : List (Byte × Byte × Byte × Byte × Byte) := [
  (0x50, 0x10, 0x00, 0x60, 0x00),
  (0x50, 0x50, 0x00, 0xA0, 0xC0),
  (0x50, 0x90, 0x00, 0xE0, 0x80),
  (0x50, 0xD0, 0x00, 0x20, 0x01),
  (0xD0, 0x10, 0x00, 0xE0, 0x80),
  (0xD0, 0x50, 0x00, 0x20, 0x01),
  (0xD0, 0x90, 0x00, 0x60, 0x41),
  (0xD0, 0xD0, 0x00, 0xA0, 0x81),
  (0xFF, 0x00, 0x01, 0x00, 0x03),
  (0x7F, 0x00, 0x01, 0x80, 0xC0),
  (0xFF, 0xFF, 0x01, 0xFF, 0x81),
  (0x00, 0x00, 0x00, 0x00, 0x02),
  (0x80, 0x80, 0x00, 0x00, 0x43),
  (0x09, 0x01, 0x08, 0x0A, 0x08)]

theorem test_ADC_vectors : (adcVectors.all fun v =>
    ends { start 0x8000 [0x69, v.2.1] [] with a := v.1, p := v.2.2.1 }
      0x8002 v.2.2.2.1 0x00 0x00 0xFF v.2.2.2.2 2 []) = true := by decide +kernel

/-- V63 to V76: SBC immediate, as (`A`, operand, `P`, new `A`, new `P`) (R162). -/
def sbcVectors : List (Byte × Byte × Byte × Byte × Byte) := [
  (0x50, 0xF0, 0x01, 0x60, 0x00),
  (0x50, 0xB0, 0x01, 0xA0, 0xC0),
  (0x50, 0x70, 0x01, 0xE0, 0x80),
  (0x50, 0x30, 0x01, 0x20, 0x01),
  (0xD0, 0xF0, 0x01, 0xE0, 0x80),
  (0xD0, 0xB0, 0x01, 0x20, 0x01),
  (0xD0, 0x70, 0x01, 0x60, 0x41),
  (0xD0, 0x30, 0x01, 0xA0, 0x81),
  (0x00, 0x00, 0x00, 0xFF, 0x80),
  (0x00, 0x01, 0x01, 0xFF, 0x80),
  (0x80, 0x00, 0x00, 0x7F, 0x41),
  (0x05, 0x05, 0x01, 0x00, 0x03),
  (0x10, 0x01, 0x09, 0x0F, 0x09)]

theorem test_SBC_vectors : (sbcVectors.all fun v =>
    ends { start 0x8000 [0xE9, v.2.1] [] with a := v.1, p := v.2.2.1 }
      0x8002 v.2.2.2.1 0x00 0x00 0xFF v.2.2.2.2 2 []) = true := by decide +kernel

/-! ### The bus, the co-processor, the halt -/

/-- S2: an open-bus read returns the last byte fetched. -/
theorem test_S2_open_bus :
    ends (start 0x8000 [0xAD, 0x00, 0x40] []) 0x8003 0x40 0x00 0x00 0xFF 0x00 4 [] = true := by
  decide +kernel

/-- M5: without save RAM its window is open bus. -/
theorem test_M5_absent_save_ram :
    after { start 0x8000 [0xAD, 0x00, 0x60] [] with cfg := { (start 0x8000 [0xAD, 0x00, 0x60]
      []).cfg with sramSize := 0 } } (fun t => t.a == 0x60) = true := by decide +kernel

/-- S12: four addresses of register 2. -/
theorem test_S12_graphics_mirrors :
    ([0x2002, 0x200A, 0x3802, 0x3FFA] : List Addr).all
      (fun a => translateAddr Config.base a == .gfx 2) = true := by decide +kernel

/-- 2.10, step 3: catch-up to 12, then register 2 is sampled. -/
theorem test_catch_up_read :
    after { start 0x8000 [0xAD, 0x02, 0x20] [] with cpuCycles := 4 }
      (fun t => t.ppuCycles == 12 && t.ppu == [.read 2, .catchUp 12] && t.cpuCycles == 8) = true := by
  decide +kernel

/-- 2.10, step 4: catch-up to 24, then register 0 is written. -/
theorem test_catch_up_write :
    after { start 0x8000 [0x8D, 0x00, 0x20] [] with a := 0x80, cpuCycles := 8, ppuCycles := 12 }
      (fun t => t.ppuCycles == 24 && t.ppu == [.write 0 0x80, .catchUp 24] && t.latch == 0x80)
      = true := by decide +kernel

/-- S9: the invalid opcode halts the core and changes no register. -/
theorem test_S9_invalid_opcode :
    after (start 0x8000 [0x02] []) (fun t => t.halted == some (0x8000, 0x02) && t.pc == 0x8000 &&
      t.cpuCycles == 0 && t.latch == 0x02 && t.sp == 0xFF && t.p == 0x00) = true := by
  decide +kernel

/-- S6: the reset vector of a two-bank ROM is at its last bytes. -/
theorem test_S6_reset_vector :
    (State.powerOn { Config.base with prgBanks := 2, prg := [(0x3FFC, 0x11), (0x3FFD, 0x22),
      (0x7FFD, 0x90)] } [] [] 0x55).pc = 0x9000 := by decide +kernel

/-- H4: `Run` of a bound already met runs nothing. -/
theorem test_H4_run_nothing :
    run 0 (start 0x8000 [0xEA] []) = .next (.ranToBound, start 0x8000 [0xEA] []) := by
  rfl

/-- H5: the largest overshoot, 7. -/
theorem test_H5_overshoot :
    (match run 1 { start 0x8000 [0xFE, 0xFF, 0x12] [(0x1300, 0x00)] with x := 0x01 } with
      | .next (.ranToBound, t) => t.cpuCycles == 8
      | _ => false) = true := by decide +kernel

/-- S13: the trace line. -/
theorem test_S13_trace :
    traceLine 0x8000 (.ldaImm 0x80) = "8000\tLDA #$80" ∧
    traceLine 0x8000 (.ldaAbsX 0x12FF) = "8000\tLDA $12FF,X" ∧
    traceLine 0x8000 (.ldaIndY 0x40) = "8000\tLDA ($40),Y" ∧
    traceLine 0x8005 (.bne (-3)) = "8005\tBNE -3" := by decide +kernel

/-- A placed instruction is the first that runs after reset (log 9). -/
theorem test_withFetchWord :
    after (State.reset.withFetchWord 24 0x1234A9) (fun t => t.a == 0x34 && t.pc == 0x0002) = true := by
  decide +kernel

/-- Where no storage lies at `PC`, it is placed at 0x8000 (log 9). -/
theorem test_withFetchWord_moved :
    after (({ State.reset with pc := 0x4000 }).withFetchWord 8 0xE8)
      (fun t => t.x == 0x01 && t.pc == 0x8001) = true := by decide +kernel

/-! ## Witnesses: for each obligation with hypotheses, concrete states and operands that meet them

Operands stand at the ends of their ranges, and every clause of a statement has one that reaches it. -/

/-- A state with this save-RAM size. -/
def withSram (n : Nat) : State := { State.reset with cfg := { Config.base with sramSize := n } }

theorem witness_DecodeOfEncodeIsTheInstruction :
    (Instr.bne (-128)).wellFormed = true ∧ (Instr.bne 127).wellFormed = true ∧
    (Instr.ldaImm 0xFF).wellFormed = true ∧ (Instr.jmpInd 0xFFFF).wellFormed = true ∧
    Instr.brk.wellFormed = true := by decide

theorem witness_DecodedBytesAreTheEncoding :
    decode [0xD0, 0x80, 0xEA] = .decoded (.bne (-128)) [0xEA] ∧
    decode [0xD0, 0x7F] = .decoded (.bne 127) [] ∧
    decode [0x6C, 0xFF, 0xFF, 0x02] = .decoded (.jmpInd 0xFFFF) [0x02] ∧
    decode [0x00] = .decoded .brk [] := ⟨rfl, rfl, rfl, rfl⟩

theorem witness_PageTableAgreesWithTranslate :
    (withSram 0).cfg.valid = true ∧ (withSram 256).cfg.valid = true ∧
    (withSram 8192).cfg.valid = true ∧ ({ Config.base with prgBanks := 255 }).valid = true := by
  decide

theorem witness_OpenBusAndGraphicsWindowAddresses :
    translateAddr Config.base 0x1FFF = .cell .wram 0x07FF ∧ translateAddr Config.base 0x2000 = .gfx 0 ∧
    translateAddr Config.base 0x3FFF = .gfx 7 ∧ translateAddr Config.base 0x4000 = .openBus ∧
    translateAddr Config.base 0x5FFF = .openBus ∧ translateAddr Config.base 0x6000 = .cell .sram 0 ∧
    translateAddr Config.base 0x7FFF = .cell .sram 0x1FFF ∧
    translateAddr (withSram 0).cfg 0x6000 = .openBus ∧
    translateAddr (withSram 0).cfg 0x7FFF = .openBus ∧
    translateAddr Config.base 0x8000 = .cell .prg 0 := by decide +kernel

theorem witness_WorkRamMirrorsShareStorage :
    (0x0000 : Addr).toNat < 0x0800 ∧ (0x07FF : Addr).toNat < 0x0800 ∧
    translateAddr Config.base 0x1FFF = translateAddr Config.base 0x07FF := by decide +kernel

theorem witness_SaveRamMirrorsShareStorage :
    0 < (withSram 2048).cfg.sramSize ∧ 0x6000 ≤ (0x6000 : Addr).toNat ∧
    (0x7800 : Addr).toNat ≤ 0x7FFF ∧
    ((0x6000 : Addr).toNat - 0x6000) % 2048 = ((0x7800 : Addr).toNat - 0x6000) % 2048 ∧
    ((0x67FF : Addr).toNat - 0x6000) % 2048 = ((0x7FFF : Addr).toNat - 0x6000) % 2048 := by decide

/-- A RAM cell read through a mirror, a cell nothing has written, program ROM: each has a byte. -/
theorem witness_ReadReturnsTheLastWrite :
    (State.reset.poke 0x0000 0x42).peek 0x1800 = some 0x42 ∧
    State.reset.peek 0x07FF = some (Config.wramInit 0x07FF) ∧
    State.reset.peek 0xFFFF = some 0x00 := ⟨rfl, rfl, rfl⟩

theorem witness_RomAndOpenBusKeepTheirContents :
    0x8000 ≤ (0x8000 : Addr).toNat ∧ 0x8000 ≤ (0xFFFF : Addr).toNat ∧
    translateAddr State.reset.cfg 0x4000 = .openBus ∧
    translateAddr (withSram 0).cfg 0x7FFF = .openBus := by decide +kernel

theorem witness_OpenBusReadsTheLastByteOnTheBus :
    translateAddr State.reset.cfg 0x5FFF = .openBus ∧
    translateAddr (withSram 0).cfg 0x6000 = .openBus := by decide +kernel

/-- Level, behind, and level again: the premise holds, and both clauses are reached. -/
theorem witness_CatchUpReachesTheCpuTime :
    ppuTime State.reset.ppu = State.reset.ppuCycles ∧
    (let s := { State.reset with cpuCycles := 1 }
     ppuTime s.ppu = s.ppuCycles ∧ s.ppuCycles < s.cpuCycles * s.cfg.ppuPerCpu) ∧
    (let s := { State.reset with cpuCycles := 1, ppuCycles := 3, ppu := [.read 2, .catchUp 3] }
     ppuTime s.ppu = s.ppuCycles ∧ s.cpuCycles * s.cfg.ppuPerCpu ≤ s.ppuCycles) := by
  decide +kernel

theorem witness_GraphicsAccessCatchesUpFirst :
    (0x2000 ≤ (0x2000 : Addr).toNat ∧ (0x2000 : Addr).toNat ≤ 0x3FFF) ∧
    (0x2000 ≤ (0x3FFF : Addr).toNat ∧ (0x3FFF : Addr).toNat ≤ 0x3FFF) := by decide

/-- Both clauses; the largest base with the largest index wraps, and leaves the page. -/
theorem witness_IndexedAbsoluteAddressesAndPenalty :
    (let s := { State.reset with x := 0xFF, y := 0x00 }
     (MemOperand.absx 0xFFFF = .absx 0xFFFF ∧ s.x = s.x) ∧
      (resolve (.absx 0xFFFF) s).ea = 0x00FE ∧ (resolve (.absx 0xFFFF) s).penalty = 1 ∧
      (resolve (.absy 0xFFFF) s).ea = 0xFFFF ∧ (resolve (.absy 0xFFFF) s).penalty = 0) := by
  decide +kernel

/-- A pointer at 0xFF, its second byte at 0x00, for both modes. -/
theorem witness_PointerModesReadInPageZero :
    (let s := { start 0x8000 [] [(0x00FF, 0x34), (0x0000, 0x12)] with x := 0xFF }
     (0xFF : Byte).toNat = ((0x00 : Byte).toNat + s.x.toNat) % 256 ∧
     s.peek (BitVec.ofNat 16 (0xFF : Byte).toNat) = some 0x34 ∧
     s.peek (BitVec.ofNat 16 (((0xFF : Byte).toNat + 1) % 256)) = some 0x12) := by decide +kernel

theorem witness_LoadsTakeTheOperandAndSetNZ :
    (Instr.ldaIndY 0xFF).mnemonic = .lda ∧ (Instr.ldxZpY 0x00).mnemonic = .ldx ∧
    (Instr.ldyAbsX 0xFFFF).mnemonic = .ldy := ⟨rfl, rfl, rfl⟩

theorem witness_StoresWriteTheRegisterAndNoFlag :
    (Instr.staIndX 0xFF).mnemonic = .sta ∧ (Instr.stxZpY 0xFF).mnemonic = .stx ∧
    (Instr.styAbs 0xFFFF).mnemonic = .sty := ⟨rfl, rfl, rfl⟩

theorem witness_ReadClassArithmetic :
    (Instr.adcImm 0xFF).mnemonic = .adc ∧ (Instr.sbcIndY 0xFF).mnemonic = .sbc ∧
    (Instr.andImm 0x00).mnemonic ∈ [Mnemonic.and, .ora, .eor] ∧
    (Instr.oraAbs 0xFFFF).mnemonic ∈ [Mnemonic.and, .ora, .eor] ∧
    (Instr.eorIndX 0x00).mnemonic ∈ [Mnemonic.and, .ora, .eor] ∧
    (Instr.cmpAbsX 0xFFFF).mnemonic = .cmp ∧ (Instr.cpxImm 0x00).mnemonic = .cpx ∧
    (Instr.cpyZp 0xFF).mnemonic = .cpy ∧ (Instr.bitAbs 0xFFFF).mnemonic = .bit := by decide

theorem witness_ModifyClass :
    (Instr.incAbsX 0xFFFF).mnemonic = .inc ∧ (Instr.decZp 0x00).mnemonic = .dec ∧
    (Instr.rorAcc.mnemonic ∈ shifts ∧ Instr.rorAcc.operand = .acc) ∧
    ((Instr.aslAbsX 0xFFFF).mnemonic ∈ shifts ∧ (Instr.aslAbsX 0xFFFF).operand ≠ .acc) ∧
    (Instr.lsrAcc.mnemonic ∈ shifts) ∧ (Instr.rolZpX 0xFF).mnemonic ∈ shifts := by decide

theorem witness_BranchesTestOneFlag :
    (Instr.bcc, Flag.c, false) ∈ branches ∧ (Instr.bcs, Flag.c, true) ∈ branches ∧
    (Instr.bne, Flag.z, false) ∈ branches ∧ (Instr.beq, Flag.z, true) ∈ branches ∧
    (Instr.bpl, Flag.n, false) ∈ branches ∧ (Instr.bmi, Flag.n, true) ∈ branches ∧
    (Instr.bvc, Flag.v, false) ∈ branches ∧ (Instr.bvs, Flag.v, true) ∈ branches ∧
    ((-128 : Int) ≤ -128 ∧ (-128 : Int) ≤ 127) ∧ ((-128 : Int) ≤ 127 ∧ (127 : Int) ≤ 127) := by
  simp [branches]

/-- A call, and its return from the very state the call left. -/
theorem witness_SubroutineReturnsAfterTheCall :
    ∃ t u : State, exec (.jsr 0x9000) { start 0x8000 [] [] with sp := 0x00 } = .next t ∧ u.sp = t.sp ∧
      u.peek (stackAddr (t.sp + 1)) = t.peek (stackAddr (t.sp + 1)) ∧
      u.peek (stackAddr (t.sp + 2)) = t.peek (stackAddr (t.sp + 2)) :=
  ⟨_, _, rfl, rfl, rfl, rfl⟩

theorem witness_PushesStoreThenDecrement :
    (Instr.pha = .pha ∧ State.reset.a = State.reset.a) ∧
    (Instr.php = .php ∧ (0x30 : Byte) = State.reset.p ||| 0x30) := by decide

theorem witness_FlagInstructionsWriteOneBit :
    (Instr.clc, Flag.c, false) ∈ flagWrites ∧ (Instr.sec, Flag.c, true) ∈ flagWrites ∧
    (Instr.cli, Flag.i, false) ∈ flagWrites ∧ (Instr.sei, Flag.i, true) ∈ flagWrites ∧
    (Instr.clv, Flag.v, false) ∈ flagWrites ∧ (Instr.cld, Flag.d, false) ∈ flagWrites ∧
    (Instr.sed, Flag.d, true) ∈ flagWrites := by decide

/-- A trap, and its return from the very state the trap left. -/
theorem witness_InterruptReturnsPastTheBreak :
    ∃ t u : State, exec .brk { start 0x80FF [] [] with sp := 0x01, p := 0xC4 } = .next t ∧ u.sp = t.sp ∧
      ∀ k : Byte, k ∈ [1, 2, 3] →
        u.peek (stackAddr (t.sp + k)) = t.peek (stackAddr (t.sp + k)) :=
  ⟨_, _, rfl, rfl, fun _ _ => rfl⟩

/-- NOP meets the premises of every clause; a shift of memory is no writer of `A`, one of `A` no writer
of memory. -/
theorem witness_WriterIndexes :
    (∃ t, exec .nop State.reset = .next t) ∧ (∃ t, exec (.aslZp 0xFF) State.reset = .next t) ∧
    (∃ t, exec .rorAcc State.reset = .next t) ∧
    Instr.nop.mnemonic ∉ [Mnemonic.lda, .txa, .tya, .pla, .adc, .sbc, .and, .ora, .eor] ∧
    ¬ ((Instr.aslZp 0xFF).mnemonic ∈ shifts ∧ (Instr.aslZp 0xFF).operand = .acc) ∧
    Instr.nop.mnemonic ∉ [Mnemonic.ldx, .tax, .tsx, .inx, .dex] ∧
    Instr.nop.mnemonic ∉ [Mnemonic.ldy, .tay, .iny, .dey] ∧
    Instr.nop.mnemonic ∉ [Mnemonic.txs, .pha, .php, .pla, .plp, .jsr, .rts, .brk, .rti] ∧
    (∀ f ∈ [Flag.c, .z, .i, .d, .b, .u, .v, .n], Instr.nop.mnemonic ∉ flagWriters f) ∧
    Instr.plp.mnemonic ∉ flagWriters .b ∧ Instr.rti.mnemonic ∉ flagWriters .u ∧
    Instr.rorAcc.mnemonic ∉ [Mnemonic.sta, .stx, .sty, .pha, .php, .jsr, .brk] ∧
    ¬ (Instr.rorAcc.mnemonic ∈ modifyClass ∧ Instr.rorAcc.operand ≠ .acc) :=
  ⟨⟨_, rfl⟩, ⟨_, rfl⟩, ⟨_, rfl⟩, by decide, by decide, by decide, by decide, by decide, by decide,
    by decide, by decide, by decide, by decide⟩

/-- A load beside the window, and an indirect jump beside it. -/
theorem witness_OnlyWindowAccessesReachTheCoprocessor :
    (∃ t, exec (.ldaAbs 0x4000) State.reset = .next t) ∧
    (∀ r, translateAddr State.reset.cfg (resolve (.abs 0x4000) State.reset).ea ≠ .gfx r) ∧
    (∃ t, exec (.jmpInd 0x1FFE) State.reset = .next t) ∧
    (∀ r, translateAddr State.reset.cfg 0x1FFE ≠ .gfx r ∧
      translateAddr State.reset.cfg (indirectHigh State.reset.cfg 0x1FFE) ≠ .gfx r) ∧
    (Instr.ldaAbs 0x4000).operand = .mem (.abs 0x4000) ∧
    (Instr.jmpInd 0x1FFE).operand = .ind 0x1FFE :=
  ⟨⟨_, rfl⟩, by decide +kernel, ⟨_, rfl⟩, by decide +kernel, rfl, rfl⟩

theorem witness_InterruptDisableAndDecimalAreInert :
    (Instr.adcImm 0x09).mnemonic ∉ [Mnemonic.php, .plp, .brk, .rti, .sei, .cli, .sed, .cld] ∧
    (∃ t, exec (.adcImm 0x09) { State.reset with a := 0x01 } = .next t) ∧
    (Flag.d = .i ∨ Flag.d = .d) ∧ (Flag.i = .i ∨ Flag.i = .d) :=
  ⟨by decide, ⟨_, rfl⟩, .inr rfl, .inl rfl⟩

/-- `LDA #$80` at 0xFFFF, its operand byte at 0x0000: the fetch wraps. -/
theorem witness_StepExecutesWhatItFetches :
    (let s := (start 0xFFFF [0xA9, 0x80] []);
     s.cfg.valid = true ∧ s.halted = none ∧ decode s.fetch.1 = .decoded (.ldaImm 0x80) [] ∧
     (Instr.ldaImm 0x80).wellFormed = true ∧
     ∀ k, k < (Instr.ldaImm 0x80).length →
       s.peek (BitVec.ofNat 16 (s.pc.toNat + k)) = (encode (.ldaImm 0x80))[k]?) := by
  decide +kernel

/-- Encodings of 1, 2 and 3 bytes read from open bus, where every byte read is the latch. -/
theorem witness_StepExecutesTheStoredInstruction :
    ([(.nop, 0xEA), (.ldaImm 0xA9, 0xA9), (.ldaAbs 0xADAD, 0xAD)] : List (Instr × Byte)).all
      (fun e =>
        let s := { State.reset with pc := 0x4000, latch := e.2 }
        let b0 := s.busRead s.pc
        let b1 := b0.2.busRead (s.pc + 1)
        let b2 := b1.2.busRead (s.pc + 2)
        s.cfg.valid && s.halted.isNone && e.1.wellFormed &&
          encode e.1 == [b0.1, b1.1, b2.1].take e.1.length) = true := by decide +kernel

/-- Unassigned opcodes in storage and on open bus, an assigned one, and a fetch from the graphics
window, whose byte is a free value. -/
theorem witness_InvalidOpcodeHaltsTheCore :
    (let s := start 0x8000 [0x02] [];
     s.cfg.valid = true ∧ s.halted = none ∧ s.peek s.pc = some 0x02 ∧
       (s.busRead s.pc).1 ∈ invalidOpcodes) ∧
    (let s := start 0xFFFF [0xFF] [];
     s.cfg.valid = true ∧ s.halted = none ∧ s.peek s.pc = some 0xFF ∧
       (s.busRead s.pc).1 ∈ invalidOpcodes) ∧
    (let s := { State.reset with pc := 0x4000, latch := 0x02 };
     s.cfg.valid = true ∧ s.halted = none ∧ translateAddr s.cfg s.pc = .openBus ∧
       (s.busRead s.pc).1 ∈ invalidOpcodes) ∧
    (start 0x8000 [0xEA] []).peek 0x8000 = some 0xEA ∧ 0xEA ∉ invalidOpcodes ∧
    (let s := { State.reset with pc := 0x3FFF };
     s.cfg.valid = true ∧ s.halted = none ∧ translateAddr s.cfg s.pc = .gfx 7) := by
  decide +kernel

theorem witness_HaltedCoreDoesNothing :
    (let s := { State.reset with halted := some (0x0000, 0x02) };
     s.cfg.valid = true ∧ s.halted ≠ none) := by decide

/-- Each of the four constraints, broken by the value next to an admissible one. -/
theorem witness_InadmissibleConfigurationIsRefused :
    ({ Config.base with prgBanks := 0 }).prgBanks = 0 ∧ (withSram 255).cfg.sramSize % 256 ≠ 0 ∧
    8192 < (withSram 8448).cfg.sramSize ∧ ({ Config.base with ppuPerCpu := 0 }).ppuPerCpu = 0 := by
  decide

theorem witness_StepAlwaysAnswersAndClocksAdvance : State.reset.cfg.valid = true := by decide

/-- A state with the invariant in mid-run, its co-processor behind, and the step from it. -/
theorem witness_StepKeepsTheInvariant :
    ∃ s t, Inv s ∧ step s = .next t ∧ s.cpuCycles = 8 ∧ s.ppuCycles = 12 :=
  ⟨{ start 0x8000 [0xE8] [(0x0000, 0x01), (0x6000, 0x02)] with
      cpuCycles := 8, ppuCycles := 12, ppu := [.read 2, .catchUp 12] }, _,
    ⟨⟨by decide +kernel, by decide +kernel, by decide +kernel⟩, by decide +kernel, by decide +kernel,
      by decide +kernel, by decide +kernel, by decide +kernel, fun _ _ h => nomatch h⟩,
    rfl, rfl, rfl⟩

/-- A halted state with the invariant: the record names `PC` and the byte on the bus. -/
theorem witness_StepKeepsTheInvariant_halted :
    ∃ s t, Inv s ∧ step s = .next t ∧ s.halted = some (0x8000, 0x02) :=
  ⟨{ start 0x8000 [0x02] [] with latch := 0x02, halted := some (0x8000, 0x02) }, _,
    ⟨⟨by decide +kernel, by decide +kernel, by decide +kernel⟩, by decide +kernel, by decide +kernel,
      by decide +kernel, by decide +kernel, by decide +kernel,
      fun _ _ h => by cases h; exact ⟨rfl, rfl, rfl⟩⟩,
    rfl, rfl⟩

/-- A two-bank machine without save RAM, with one graphics bank. -/
def twoBanks : Config :=
  { Config.base with prgBanks := 2, sramSize := 0, prg := [(0x7FFD, 0x90)], chrBanks := 1,
                     chr := [(0x1FFF, 0x01)] }

theorem twoBanks_ok : ConfigOk twoBanks :=
  ⟨by decide +kernel, by decide +kernel, by decide +kernel⟩

/-- Its power-on state and the state one step later are reachable. -/
theorem witness_ReachableStatesHaveTheInvariant : ∃ t,
    Reachable (State.powerOn twoBanks [(0x07FF, 0x01)] [] 0x55) ∧ Reachable t ∧
    step (State.powerOn twoBanks [(0x07FF, 0x01)] [] 0x55) = .next t :=
  have h := Reachable.powerOn twoBanks [(0x07FF, 0x01)] [] 0x55 twoBanks_ok (by decide +kernel)
    (by decide +kernel)
  ⟨_, h, .step _ _ h rfl, rfl⟩

/-- A running core below its bound, and a halted one. -/
theorem witness_RunStopsAtTheBoundOrTheHalt :
    State.reset.cfg.valid = true ∧ State.reset.halted = none ∧ State.reset.cpuCycles < 1 ∧
    (let s := { State.reset with halted := some (0x0000, 0x02) };
     s.cfg.valid = true ∧ s.halted ≠ none) := by decide

/-- Outside the window with other banks, and in it with the same. -/
theorem witness_GraphicsBanksAndMapperDoNotReachTheBus :
    (∀ r, translateAddr State.reset.cfg 0x1FFF ≠ .gfx r) ∧
    (∀ r, translateAddr State.reset.cfg 0x4000 ≠ .gfx r) ∧
    translateAddr State.reset.cfg 0x2000 = .gfx 0 ∧ 0 = State.reset.cfg.chrBanks ∧
    [] = State.reset.cfg.chr := by decide +kernel


end Sys2Proof.Tests
end

section
/-! PROOFS. The constraints of R9 on the configuration, and the refusal of one that breaks them. -/

namespace Sys2Proof

/-- `Config.valid` answers false exactly when one of the four constraints of R9 is broken. -/
theorem Config.valid_eq_false_iff (cfg : Config) :
    cfg.valid = false ↔
      cfg.prgBanks = 0 ∨ cfg.sramSize % 256 ≠ 0 ∨ 8192 < cfg.sramSize ∨ cfg.ppuPerCpu = 0 := by
  simp only [Config.valid, Bool.and_eq_false_iff, decide_eq_false_iff_not]
  omega

end Sys2Proof

namespace Sys2Proof.Machine

/-- The configuration is tested before the halt record and before the fetch (log 8). -/
theorem step_of_valid_eq_false {s : State} (h : s.cfg.valid = false) :
    step s = .refused .invalidConfiguration := by
  simp only [step, h]

/-- Settles O50: a broken constraint makes `Config.valid` false, and `step` then refuses. -/
theorem inadmissibleConfigurationIsRefused : Obligations.InadmissibleConfigurationIsRefused :=
  fun s hbroken => step_of_valid_eq_false ((Config.valid_eq_false_iff s.cfg).mpr hbroken)

end Sys2Proof.Machine
end

section
/-! PROOFS. The shapes `exec` takes, said once: the shared frame of the instruction's class with the
function of its mnemonic, or one of the four instructions that have a meaning of their own. A claim
about every instruction is a case split over these shapes. -/

namespace Sys2Proof.Machine

/-- `e` is a shape the meaning of `i` can have. -/
inductive ExecForm (i : Instr) : (State → Answer) → Prop where
  | immediate {f : Byte → State → State} (b1 : Byte) (hf : readBody i.mnemonic = some f) :
      ExecForm i (runImmediate 2 b1 f)
  | read {f : Byte → State → State} (base : Nat) (m : MemOperand)
      (hf : readBody i.mnemonic = some f) : ExecForm i (runRead base m f)
  | store {reg : State → Byte} (base : Nat) (m : MemOperand)
      (hreg : storeSource i.mnemonic = some reg) : ExecForm i (runStore base m reg)
  | accumulator {f : Byte → Byte → Byte × Byte} (hf : modifyBody i.mnemonic = some f)
      (hacc : i.operand = .acc) : ExecForm i (runAccumulator 2 f)
  | modify {f : Byte → Byte → Byte × Byte} (base : Nat) (m : MemOperand)
      (hf : modifyBody i.mnemonic = some f) : ExecForm i (runModify base m f)
  | branch {cond : Byte → Bool} (disp : Int) (hc : branchCond i.mnemonic = some cond) :
      ExecForm i (runBranch cond disp)
  | implied {f : State → State} (base : Nat) (hf : impliedBody i.mnemonic = some (base, f)) :
      ExecForm i (runImplied base f)
  | jmpAbs (w : Addr) (hi : i = .jmpAbs w) : ExecForm i (execJmpAbs w)
  | jmpInd (w : Addr) (hi : i = .jmpInd w) : ExecForm i (execJmpInd w)
  | jsr (w : Addr) (hi : i = .jsr w) : ExecForm i (execJsr w)
  | brk (hi : i = .brk) : ExecForm i execBrk

/-- A single is an implicit-mode instruction of `impliedBody`, or BRK, JMP or JSR. -/
theorem single_forms {i : Instr} (h : i.mnemonic ∈ singles) :
    (∃ base f, impliedBody i.mnemonic = some (base, f)) ∨ i = .brk ∨ (∃ w, i = .jmpAbs w) ∨
    (∃ w, i = .jmpInd w) ∨ (∃ w, i = .jsr w) := by
  rcases single_cases h with hi | hj
  · by_cases hb : i = .brk
    · exact .inr (.inl hb)
    · have key : ∀ j ∈ [Instr.tax, .tay, .txa, .tya, .tsx, .txs, .inx, .iny, .dex, .dey, .rts, .pha,
          .pla, .php, .plp, .clc, .sec, .cli, .sei, .clv, .cld, .sed, .brk, .rti, .nop], j ≠ .brk →
          (impliedBody j.mnemonic).isSome = true := by decide
      obtain ⟨⟨base, f⟩, hf⟩ := Option.isSome_iff_exists.1 (key i hi hb)
      exact .inl ⟨base, f, hf⟩
  · exact .inr (.inr hj)

/-- Every instruction has one of the shapes. -/
theorem execForm (i : Instr) : ExecForm i (exec i) := by
  rcases class_cases i with ⟨f, hf⟩ | ⟨reg, hreg⟩ | ⟨f, hf⟩ | ⟨cond, hc⟩ | hs
  · rcases exec_read hf with ⟨b1, -, he, -⟩ | ⟨m, -, base, he, -⟩
    · exact funext he ▸ .immediate b1 hf
    · exact funext he ▸ .read base m hf
  · obtain ⟨m, -, base, he, -⟩ := exec_store hreg
    exact funext he ▸ .store base m hreg
  · rcases exec_modify hf with ⟨hacc, he, -⟩ | ⟨m, -, base, he, -⟩
    · exact funext he ▸ .accumulator hf hacc
    · exact funext he ▸ .modify base m hf
  · obtain ⟨disp, -, he, -⟩ := exec_branch hc
    exact funext he ▸ .branch disp hc
  · rcases single_forms hs with ⟨base, f, hf⟩ | rfl | ⟨w, rfl⟩ | ⟨w, rfl⟩ | ⟨w, rfl⟩
    · exact funext (exec_implied hf).2.1 ▸ .implied base hf
    · exact .brk rfl
    · exact .jmpAbs w rfl
    · exact .jmpInd w rfl
    · exact .jsr w rfl

end Sys2Proof.Machine
end

section
/-! PROOFS. What every operation of the core passes on from the state before it to the state after it:
the configuration, the halt record, canonical memories, the co-processor's clock. -/

namespace Sys2Proof.Machine

/-- `t` has the configuration and the halt record of `s`, and keeps its memories canonical and its
clocks in order. -/
structure Keeps (s t : State) : Prop where
  config : t.cfg = s.cfg
  halt : t.halted = s.halted
  store : StoreOk s → StoreOk t
  clock : ClockOk s → ClockOk t

variable {s t u : State}

theorem Keeps.trans (h : Keeps s t) (h' : Keeps t u) : Keeps s u :=
  ⟨h'.config.trans h.config, h'.halt.trans h.halt, h'.store ∘ h.store, h'.clock ∘ h.clock⟩

/-- An update of registers and latch that lets the CPU clock advance. -/
theorem Keeps.registers (a x y sp p : Byte) (pc : Addr) (latch : Byte) (n : Nat) :
    Keeps s { s with a := a, x := x, y := y, sp := sp, p := p, pc := pc, latch := latch,
                     cpuCycles := s.cpuCycles + n } :=
  ⟨rfl, rfl, fun h => h.congr rfl rfl rfl, fun h => h.congr rfl rfl rfl (Nat.le_add_right _ n)⟩

theorem Keeps.advance (n : Nat) : Keeps s (s.advance n) := .registers _ _ _ _ _ _ _ 0
theorem Keeps.setP (v : Byte) : Keeps s (s.setP v) := .registers _ _ _ _ _ _ _ 0
theorem Keeps.setPc (v : Addr) : Keeps s (s.setPc v) := .registers _ _ _ _ _ _ _ 0
theorem Keeps.setSp (v : Byte) : Keeps s (s.setSp v) := .registers _ _ _ _ _ _ _ 0
theorem Keeps.setLatch (v : Byte) : Keeps s (s.setLatch v) := .registers _ _ _ _ _ _ _ 0
theorem Keeps.tick (n : Nat) : Keeps s (s.tick n) := .registers _ _ _ _ _ _ _ n

theorem Keeps.busRead (a : Addr) : Keeps s (s.busRead a).2 :=
  ⟨s.busRead_cfg a, s.busRead_halted a, fun h => h.busRead a, fun h => h.busRead a⟩

theorem Keeps.busWrite (a : Addr) (v : Byte) : Keeps s (s.busWrite a v) :=
  ⟨s.busWrite_cfg a v, s.busWrite_halted a v, fun h => h.busWrite a v, fun h => h.busWrite a v⟩

theorem Keeps.push (v : Byte) : Keeps s (s.push v) := (Keeps.busWrite _ v).trans (.setSp _)

theorem Keeps.pushWord (v : Addr) : Keeps s (s.pushWord v) := (Keeps.push _).trans (.push _)

theorem Keeps.pull : Keeps s s.pull.2 := (Keeps.setSp _).trans (.busRead _)

theorem Keeps.pullWord : Keeps s s.pullWord.2 := Keeps.pull.trans .pull

theorem Keeps.takeTrap (ret vector : Addr) : Keeps s (s.takeTrap ret vector) :=
  ((((Keeps.pushWord ret).trans (.push _)).trans (.setP _)).trans
    ((Keeps.busRead _).trans (.busRead _))).trans (.setPc _)

theorem Keeps.returnFromTrap : Keeps s s.returnFromTrap :=
  ((Keeps.pull.trans (.setP _)).trans .pullWord).trans (.setPc _)

theorem Keeps.resolve (o : MemOperand) : Keeps s (resolve o s).state := by
  obtain ⟨v, hv⟩ := resolve_state (s := s) o
  exact hv ▸ .setLatch v

theorem Keeps.fetch : Keeps s s.fetch.2 := by
  obtain ⟨-, -, -, -, -, -, hw, hs, -, hhalt, hcfg, -, hclock⟩ := s.fetch_frame
  exact ⟨hcfg, hhalt, fun h => h.congr hw hs hcfg, hclock⟩

theorem readBody_keeps {m : Mnemonic} {f : Byte → State → State} (h : readBody m = some f)
    (v : Byte) (s : State) : Keeps s (f v s) := by
  obtain ⟨a, x, y, p, hf⟩ := readBody_frame h v s
  exact hf ▸ .registers a x y _ p _ _ 0

theorem impliedBody_keeps {m : Mnemonic} {base : Nat} {f : State → State}
    (h : impliedBody m = some (base, f)) (s : State) : Keeps s (f s) := by
  cases m with
  | pha => cases h; exact .push _
  | php => cases h; exact .push _
  | pla => cases h; exact Keeps.pull.trans (.registers _ _ _ _ _ _ _ 0)
  | plp => cases h; exact Keeps.pull.trans (.setP _)
  | rts => cases h; exact Keeps.pullWord.trans (.setPc _)
  | rti => cases h; exact .returnFromTrap
  | _ => cases h <;> exact .registers _ _ _ _ _ _ _ 0

/-- Executing an instruction keeps all of it. -/
theorem exec_keeps {i : Instr} (h : exec i s = .next t) : Keeps s t := by
  have form := execForm i
  generalize exec i = e at form h
  cases form with
  | immediate b1 hf =>
    cases h
    exact ((Keeps.advance 2).trans (readBody_keeps hf b1 _)).trans (.tick _)
  | read base m hf =>
    rw [runRead_eq] at h
    cases h
    exact ((((Keeps.resolve m).trans (.busRead _)).trans (.advance _)).trans
      (readBody_keeps hf _ _)).trans (.tick _)
  | store base m hreg =>
    rw [runStore_eq] at h
    cases h
    exact (((Keeps.resolve m).trans (.busWrite _ _)).trans (.advance _)).trans (.tick _)
  | accumulator hf hacc =>
    cases h
    exact .registers _ _ _ _ _ _ _ 2
  | modify base m hf =>
    rw [runModify_eq] at h
    cases h
    exact (((((Keeps.resolve m).trans (.busRead _)).trans (.busWrite _ _)).trans (.setP _)).trans
      (.advance _)).trans (.tick _)
  | branch disp hc =>
    rw [runBranch_eq] at h
    cases h
    split <;> exact .registers _ _ _ _ _ _ _ _
  | implied base hf =>
    cases h
    exact ((Keeps.advance 1).trans (impliedBody_keeps hf _)).trans (.tick _)
  | jmpAbs w hi =>
    cases h
    exact .registers _ _ _ _ _ _ _ 3
  | jmpInd w hi =>
    cases h
    exact (((Keeps.advance 3).trans ((Keeps.busRead _).trans (.busRead _))).trans (.setPc _)).trans
      (.tick _)
  | jsr w hi =>
    cases h
    exact (((Keeps.advance 3).trans (.pushWord _)).trans (.setPc _)).trans (.tick _)
  | brk hi =>
    cases h
    exact ((Keeps.advance 1).trans (.takeTrap _ _)).trans (.tick _)

end Sys2Proof.Machine
end

section
/-! PROOFS. The index of R21 and the table of R23: which instruction writes which register and which
flag. -/

namespace Sys2Proof.Machine
open Sys2Proof.Claims

variable {s t : State}

/-! ## Flags -/

@[simp] theorem State.pushWord_p (v : Addr) : (s.pushWord v).p = s.p := by
  simp only [State.pushWord_fields]

@[simp] theorem State.read16Ind_p (a : Addr) : (s.read16Ind a).2.p = s.p := by
  simp only [State.read16Ind, State.busRead_p]

/-- A read-class body writes only the flags of its mnemonic (R23): of the eight flags, `hg` leaves those
the flag laws keep. -/
theorem readBody_flags {m : Mnemonic} {f : Byte → State → State} (h : readBody m = some f)
    (v : Byte) (s : State) {g : Flag} (hg : m ∉ flagWriters g) :
    flag (f v s).p g = flag s.p g := by
  cases m <;> cases h
  all_goals
    cases g <;> simp [flagWriters, nzWriters] at hg <;>
      simp [loadA, loadX, loadY, addToA, subFromA, andToA, orToA, xorToA, compareA, compareX,
        compareY, testBits, sbc, flag_adc, flag_compareFlags, flag_bitTest]

/-- A modify-class body writes only the flags of its mnemonic (R23). -/
theorem modifyBody_flags {m : Mnemonic} {f : Byte → Byte → Byte × Byte} (h : modifyBody m = some f)
    (v p : Byte) {g : Flag} (hg : m ∉ flagWriters g) : flag (f v p).2 g = flag p g := by
  cases m <;> cases h
  all_goals
    cases g <;> simp [flagWriters, nzWriters] at hg <;>
      simp [incByte, decByte, aslByte, lsrByte, rolByte, rorByte]

/-- An implicit-mode body writes only the flags of its mnemonic (R23). PLP and RTI keep `B` and `U`
only, which `pulledStatus` takes from the old `P` (R25). -/
theorem impliedBody_flags {m : Mnemonic} {base : Nat} {f : State → State}
    (h : impliedBody m = some (base, f)) (s : State) {g : Flag} (hg : m ∉ flagWriters g) :
    flag (f s).p g = flag s.p g := by
  cases m <;> cases h
  all_goals
    cases g <;> simp [flagWriters, nzWriters] at hg <;>
      simp [State.push_fields, State.pull_eq, State.pullWord_eq, State.returnFromTrap_eq, incByte,
        decByte, writeFlag]

/-- Executing an instruction writes only the flags of its mnemonic (R23). -/
theorem exec_flags {i : Instr} {g : Flag} (h : exec i s = .next t)
    (hg : i.mnemonic ∉ flagWriters g) : flag t.p g = flag s.p g := by
  have form := execForm i
  generalize exec i = e at form h
  cases form with
  | immediate b1 hf =>
    cases h
    exact readBody_flags hf b1 (s.advance 2) hg
  | read base m hf =>
    rw [runRead_eq] at h
    cases h
    rw [State.tick_p, readBody_flags hf _ _ hg]
    simp
  | store base m hreg =>
    rw [runStore_eq] at h
    cases h
    simp
  | accumulator hf hacc =>
    cases h
    exact modifyBody_flags hf s.a s.p hg
  | modify base m hf =>
    rw [runModify_eq] at h
    cases h
    exact modifyBody_flags hf _ s.p hg
  | branch disp hc =>
    rw [runBranch_eq] at h
    cases h
    split <;> rfl
  | implied base hf =>
    cases h
    exact impliedBody_flags hf (s.advance 1) hg
  | jmpAbs w hi =>
    cases h
    rfl
  | jmpInd w hi =>
    cases h
    simp
  | jsr w hi =>
    cases h
    simp
  | brk hi =>
    cases h
    have hgi : g ≠ .i := by
      rintro rfl
      exact hg (by rw [hi]; decide)
    simp [State.takeTrap_brk, hgi]

/-- Settles O42: case by case over the shapes of `exec`; the flags each class of instruction keeps are
those the laws of its status computation keep. -/
theorem flagsChangeOnlyByTheirWriters : Obligations.FlagsChangeOnlyByTheirWriters :=
  fun _ _ _ _ h hg => exec_flags h hg

/-! ## Registers -/

/-- The registers of `t` are those of `s`, but for the ones that the index of R21 lets the mnemonic
write. -/
def WritesByIndex (m : Mnemonic) (s t : State) : Prop :=
  (m ∉ [.lda, .txa, .tya, .pla, .adc, .sbc, .and, .ora, .eor] → t.a = s.a) ∧
  (m ∉ [.ldx, .tax, .tsx, .inx, .dex] → t.x = s.x) ∧
  (m ∉ [.ldy, .tay, .iny, .dey] → t.y = s.y) ∧
  (m ∉ [.txs, .pha, .php, .pla, .plp, .jsr, .rts, .brk, .rti] → t.sp = s.sp)

theorem WritesByIndex.of_regsKept {m : Mnemonic} (h : RegsKept s t) : WritesByIndex m s t := by
  obtain ⟨ha, hx, hy, hsp⟩ := h
  exact ⟨fun _ => ha, fun _ => hx, fun _ => hy, fun _ => hsp⟩

/-- What comes before and keeps the registers does not matter. -/
theorem WritesByIndex.after_regsKept {m : Mnemonic} {u : State} (h : WritesByIndex m u t)
    (hk : RegsKept s u) : WritesByIndex m s t := by
  obtain ⟨ha, hx, hy, hsp⟩ := hk
  rw [WritesByIndex, ← ha, ← hx, ← hy, ← hsp]
  exact h

theorem readBody_registers {m : Mnemonic} {f : Byte → State → State} (h : readBody m = some f)
    (v : Byte) (s : State) : WritesByIndex m s (f v s) := by
  cases m <;> cases h <;>
    simp [WritesByIndex, loadA, loadX, loadY, addToA, subFromA, andToA, orToA, xorToA, compareA,
      compareX, compareY, testBits]

theorem impliedBody_registers {m : Mnemonic} {base : Nat} {f : State → State}
    (h : impliedBody m = some (base, f)) (s : State) : WritesByIndex m s (f s) := by
  cases m <;> cases h <;>
    simp [WritesByIndex, State.push_fields, State.pull_eq, State.pullWord_eq,
      State.returnFromTrap_eq, writeFlag]

/-- Executing an instruction writes only the registers of its mnemonic; in accumulator mode, `A`
(R21, R113). -/
theorem exec_registers {i : Instr} (h : exec i s = .next t) :
    (i.operand = .acc ∧ t.x = s.x ∧ t.y = s.y ∧ t.sp = s.sp) ∨ WritesByIndex i.mnemonic s t := by
  have form := execForm i
  generalize exec i = e at form h
  cases form with
  | immediate b1 hf =>
    cases h
    exact .inr (readBody_registers hf b1 (s.advance 2))
  | read base m hf =>
    rw [runRead_eq] at h
    cases h
    exact .inr ((readBody_registers hf _ _).after_regsKept (by simp [RegsKept]))
  | store base m hreg =>
    rw [runStore_eq] at h
    cases h
    exact .inr (.of_regsKept (by simp [RegsKept]))
  | accumulator hf hacc =>
    cases h
    exact .inl ⟨hacc, rfl, rfl, rfl⟩
  | modify base m hf =>
    rw [runModify_eq] at h
    cases h
    exact .inr (.of_regsKept (by simp [RegsKept]))
  | branch disp hc =>
    rw [runBranch_eq] at h
    cases h
    split <;> exact .inr (.of_regsKept ⟨rfl, rfl, rfl, rfl⟩)
  | implied base hf =>
    cases h
    exact .inr (impliedBody_registers hf (s.advance 1))
  | jmpAbs w hi =>
    cases h
    exact .inr (.of_regsKept ⟨rfl, rfl, rfl, rfl⟩)
  | jmpInd w hi =>
    cases h
    exact .inr (.of_regsKept (by simp [RegsKept, State.read16Ind]))
  | jsr w hi =>
    cases h
    exact .inr (by simp [WritesByIndex, State.pushWord_fields, hi, Instr.mnemonic])
  | brk hi =>
    cases h
    exact .inr (by simp [WritesByIndex, State.takeTrap_brk, State.push_fields, State.pushWord_fields,
      hi, Instr.mnemonic])

/-- Only shifts and rotates have the accumulator as operand (R113). -/
theorem mnemonic_mem_shifts_of_acc {i : Instr} (h : i.operand = .acc) : i.mnemonic ∈ shifts := by
  cases i <;> cases h <;> decide

/-- Settles O41: `exec_registers`, with accumulator mode the exception that the statement makes for the
shifts and rotates. -/
theorem registersChangeOnlyByTheirWriters : Obligations.RegistersChangeOnlyByTheirWriters := by
  intro i s t h
  rcases exec_registers h with ⟨hacc, hx, hy, hsp⟩ | ⟨ha, hx, hy, hsp⟩
  · exact ⟨fun _ hne => absurd ⟨mnemonic_mem_shifts_of_acc hacc, hacc⟩ hne, fun _ => hx, fun _ => hy,
      fun _ => hsp⟩
  · exact ⟨fun hm _ => ha hm, hx, hy, hsp⟩

end Sys2Proof.Machine
end

section
/-! PROOFS. The invariant: it holds at power-on, every step keeps it, and so every state a run reaches
has it. -/

namespace Sys2Proof.Machine

variable {s t : State}

/-! ## Power-on -/

/-- Storage lies behind every address from 0x8000 on, whatever the configuration (R51, R57). -/
theorem State.peek_prg (s : State) {a : Addr} (h : 0x8000 ≤ a.toNat) :
    s.peek a = some (s.cell .prg ((a.toNat - 0x8000) % s.cfg.prgSize)) :=
  State.peek_cell (translate_prg s.cfg h)

/-- A word that lies in storage is read as it is; only the latch changes (R73). -/
theorem State.read16_of_peek {a : Addr} {lo hi : Byte} (hlo : s.peek a = some lo)
    (hhi : s.peek (a + 1) = some hi) : s.read16 a = (wordOf lo hi, s.setLatch hi) := by
  have hhi' : (s.setLatch lo).peek (a + 1) = some hi := by rw [State.peek_setLatch, hhi]
  rw [State.read16, State.busRead_of_peek hlo, State.busRead_of_peek hhi']
  rfl

/-- What the reset procedure leaves: its two vector reads lie in program ROM, so that they change the
latch only (R38, R74, R250). -/
theorem State.resetProcedure_spec (s : State) : ∃ lo hi : Byte,
    s.resetProcedure.peek 0xFFFC = some lo ∧ s.resetProcedure.peek 0xFFFD = some hi ∧
    s.resetProcedure =
      { s with a := 0x00, x := 0x00, y := 0x00, sp := 0xFF, p := 0x00,
               pc := BitVec.ofNat 16 (lo.toNat + 256 * hi.toNat), latch := hi, cpuCycles := 0,
               ppuCycles := 0, ppu := [], halted := none } := by
  have hlo := s.peek_prg (a := 0xFFFC) (by decide)
  have hhi := s.peek_prg (a := 0xFFFD) (by decide)
  generalize s.cell .prg _ = lo at hlo
  generalize s.cell .prg _ = hi at hhi
  rw [State.resetProcedure, State.read16_of_peek (lo := lo) (hi := hi)]
  · exact ⟨lo, hi, hlo, hhi, by rw [wordOf_eq_ofNat]; rfl⟩
  · exact hlo
  · exact hhi

/-- Settles O54: power-on is the reset procedure; `State.reset` is the case of no byte listed. -/
theorem powerOnLeavesTheResetValues : Obligations.PowerOnLeavesTheResetValues :=
  ⟨fun _ _ _ _ => State.resetProcedure_spec _, rfl⟩

/-- Power-on leaves a state with the invariant. -/
theorem powerOn_inv {cfg : Config} {wram sram : Memory} (latch : Byte) (hc : ConfigOk cfg)
    (hw : Memory.wf 2048 wram = true) (hs : Memory.wf cfg.sramSize sram = true) :
    Inv (State.powerOn cfg wram sram latch) := by
  obtain ⟨lo, hi, -, -, h⟩ := powerOnLeavesTheResetValues.1 cfg wram sram latch
  rw [h]
  exact ⟨hc, hw, hs, (by decide : (0x00 : Byte) &&& 0x30 = 0), Nat.zero_le _, rfl,
    fun _ _ hrec => nomatch hrec⟩

/-- The configuration of `State.reset` is admissible and canonical. -/
theorem configOk_base : ConfigOk Config.base := ⟨rfl, rfl, rfl⟩

/-- Settles O53: `State.reset` is a power-on state. -/
theorem resetHasTheInvariant : Obligations.ResetHasTheInvariant :=
  powerOn_inv (wram := []) (sram := []) 0x00 configOk_base rfl rfl

/-! ## The step -/

/-- Everything a step that answers a next state can do: nothing, when the core is halted; execute what
the fetch read; or halt on the invalid opcode it read, which the latch then holds (R110, R111, R133,
R221). -/
theorem step_cases (h : step s = .next t) :
    (s.halted ≠ none ∧ t = s) ∨
    (s.halted = none ∧ ∃ i rest, decode s.fetch.1 = .decoded i rest ∧ exec i s.fetch.2 = .next t) ∨
    (s.halted = none ∧ opcodeRow? s.fetch.2.latch = none ∧ t = s.fetch.2.halt s.fetch.2.latch) := by
  simp only [step] at h
  split at h
  · cases h
  · split at h
    next hh =>
      cases h
      exact .inl ⟨by simp [hh], rfl⟩
    next hh =>
      split at h
      next i rest hd => exact .inr (.inl ⟨hh, i, rest, hd, h⟩)
      next e hd =>
        obtain ⟨op, rfl, hop, rfl⟩ := State.fetch_rejected hd
        cases h
        exact .inr (.inr ⟨hh, hop, rfl⟩)

/-- The invariant passes from a running core along what every operation keeps, when bits 4 and 5 of `P`
are as before. -/
theorem Inv.of_keeps (h : Inv s) (hrun : s.halted = none) (hk : Keeps s t)
    (hb : flag t.p .b = flag s.p .b) (hu : flag t.p .u = flag s.p .u) : Inv t := by
  obtain ⟨hw, hs⟩ := hk.store ⟨h.wram, h.sram⟩
  obtain ⟨hclock, htime⟩ := hk.clock ⟨h.clock, h.time⟩
  refine ⟨hk.config ▸ h.config, hw, hs, ?_, hclock, htime, fun addr op hhalt => ?_⟩
  · rw [status_reserved_iff, hb, hu, ← status_reserved_iff]
    exact h.status
  · rw [hk.halt, hrun] at hhalt
    cases hhalt

theorem Inv.fetch (h : Inv s) (hrun : s.halted = none) : Inv s.fetch.2 := by
  obtain ⟨-, -, -, -, hp, -⟩ := s.fetch_frame
  exact h.of_keeps hrun .fetch (by rw [hp]) (by rw [hp])

theorem Inv.exec {i : Instr} (h : Inv s) (hrun : s.halted = none) (he : exec i s = .next t) :
    Inv t :=
  h.of_keeps hrun (exec_keeps he) (exec_flags he List.not_mem_nil) (exec_flags he List.not_mem_nil)

/-- A halt on the byte the latch holds makes a record in order, when that byte is no opcode (R221). -/
theorem Inv.halt_on_latch (h : Inv s) (hop : opcodeRow? s.latch = none) : Inv (s.halt s.latch) :=
  { h with halt := fun _ _ hrec => by cases hrec; exact ⟨rfl, rfl, hop⟩ }

/-- Settles O52, by the cases of a step: the fetch keeps the invariant, and so do the instruction
executed after it and the halt on an invalid opcode. -/
theorem stepKeepsTheInvariant : Obligations.StepKeepsTheInvariant := by
  intro s t hinv h
  rcases step_cases h with ⟨-, rfl⟩ | ⟨hrun, i, rest, -, he⟩ | ⟨hrun, hop, rfl⟩
  · exact hinv
  · exact (hinv.fetch hrun).exec (Keeps.fetch.halt.trans hrun) he
  · exact (hinv.fetch hrun).halt_on_latch hop

/-- Settles O55, by induction on how the state is reached: `powerOn_inv` and StepKeepsTheInvariant. -/
theorem reachableStatesHaveTheInvariant : Obligations.ReachableStatesHaveTheInvariant := by
  intro s hs
  induction hs with
  | powerOn cfg wram sram latch hc hw hs => exact powerOn_inv latch hc hw hs
  | step s t _ ht ih => exact stepKeepsTheInvariant s t ih ht

end Sys2Proof.Machine
end

section
/-! PROOFS. The open bus: a read there returns the latch, which holds the byte of the last access. -/

namespace Sys2Proof.Machine

/-- A read of open bus returns the latch and changes nothing (R65). -/
theorem State.busRead_openBus {s : State} {a : Addr} (h : translateAddr s.cfg a = .openBus) :
    s.busRead a = (s.latch, s) := by
  simp only [State.busRead, h]

/-- Settles O11: every access leaves its byte in the latch, and keeps the configuration, so that `a`
stays open bus. -/
theorem openBusReadsTheLastByteOnTheBus : Obligations.OpenBusReadsTheLastByteOnTheBus := by
  intro s a b v h
  constructor
  · rw [State.busRead_openBus (by rwa [State.busRead_cfg]), State.busRead_latch]
  · rw [State.busRead_openBus (by rwa [State.busWrite_cfg]), State.busWrite_latch]

end Sys2Proof.Machine
end

section
/-! PROOFS. `I` and `D` are inert (R24, R28): writing one of them before an instruction or after it gives
the same state. -/

namespace Sys2Proof.Machine

variable {s : State}

/-! ## Bus and stack beside `P` -/

theorem State.push_setP (q v : Byte) : (s.setP q).push v = (s.push v).setP q := by
  rw [State.push, State.setP_sp, State.busWrite_setP]
  rfl

theorem State.pushWord_setP (q : Byte) (v : Addr) :
    (s.setP q).pushWord v = (s.pushWord v).setP q := by
  rw [State.pushWord, State.push_setP, State.push_setP, State.pushWord]

theorem State.read16Ind_setP (q : Byte) (a : Addr) :
    (s.setP q).read16Ind a = ((s.read16Ind a).1, (s.read16Ind a).2.setP q) := by
  simp only [State.read16Ind, State.busRead_setP, State.setP_cfg]

/-! ## The bodies of the classes -/

variable {m : Mnemonic} {g : Flag}

theorem passNZ_setFlag (v p : Byte) (b : Bool) (hg : g = .i ∨ g = .d) :
    passNZ v (setFlag p g b) = ((passNZ v p).1, setFlag (passNZ v p).2 g b) := by
  have hz : g ≠ .z := by rcases hg with rfl | rfl <;> decide
  have hn : g ≠ .n := by rcases hg with rfl | rfl <;> decide
  simp only [passNZ, setNZ, setFlag_comm _ _ _ hz, setFlag_comm _ _ _ hn]

theorem storeSource_setP {reg : State → Byte} (h : storeSource m = some reg) (q : Byte) :
    reg (s.setP q) = reg s := by
  cases m <;> cases h <;> rfl

theorem branchCond_setFlag {cond : Byte → Bool} (h : branchCond m = some cond) (p : Byte) (b : Bool)
    (hg : g = .i ∨ g = .d) : cond (setFlag p g b) = cond p := by
  cases m <;> cases h <;> rcases hg with rfl | rfl <;> simp

/-- An implicit-mode body that neither copies nor writes `I` and `D` commutes with a write of one of
them. -/
theorem impliedBody_setFlag {base : Nat} {f : State → State} (h : impliedBody m = some (base, f))
    (hm : m ∉ [.php, .plp, .brk, .rti, .sei, .cli, .sed, .cld]) (s : State) (b : Bool)
    (hg : g = .i ∨ g = .d) :
    f (s.setP (setFlag s.p g b)) = (f s).setP (setFlag (f s).p g b) := by
  have hc : g ≠ .c := by rcases hg with rfl | rfl <;> decide
  have hv : g ≠ .v := by rcases hg with rfl | rfl <;> decide
  cases m with
  | php | plp | rti | sei | cli | sed | cld => exact absurd (by decide) hm
  | pha => cases h; simp only [State.push_setP, State.setP_a, State.push_fields]
  | pla =>
    cases h
    simp only [State.setP_p, passNZ_setFlag _ _ _ hg, State.pull_eq]
    rfl
  | rts => cases h; simp only [State.pullWord_eq]; rfl
  | txs | nop => cases h; rfl
  | clc | sec => cases h; simp only [writeFlag, State.setP_p, setFlag_comm _ _ _ hc]; rfl
  | clv => cases h; simp only [writeFlag, State.setP_p, setFlag_comm _ _ _ hv]; rfl
  | _ =>
    cases h <;>
      simp only [State.setP_a, State.setP_x, State.setP_y, State.setP_sp, State.setP_p, incByte,
        decByte, passNZ_setFlag _ _ _ hg] <;> rfl

/-- Settles O45, case by case over the shapes of `exec`: no access of memory and no body sees `I` or
`D`, and a body that writes other flags writes them beside the two. -/
theorem interruptDisableAndDecimalAreInert : Obligations.InterruptDisableAndDecimalAreInert := by
  intro i s t g b hg hm h
  show exec i (s.setP (setFlag s.p g b)) = .next (t.setP (setFlag t.p g b))
  have form := execForm i
  generalize exec i = e at form h ⊢
  cases form with
  | immediate b1 hf =>
    cases h
    exact congrArg (fun u => Host.Outcome.next (u.tick 2))
      (readBody_setFlag hf b1 (s.advance 2) g b hg)
  | read base m hf =>
    rw [runRead_eq] at h ⊢
    cases h
    rw [resolve_setP, State.busRead_setP]
    have hb := readBody_setFlag hf ((resolve m s).state.busRead (resolve m s).ea).1
      (((resolve m s).state.busRead (resolve m s).ea).2.advance (1 + m.mode.operandBytes)) g b hg
    simp only [State.advance_p, State.busRead_p, resolve_state_p] at hb
    exact congrArg (fun u => Host.Outcome.next (u.tick (base + (resolve m s).penalty))) hb
  | store base m hreg =>
    rw [runStore_eq] at h ⊢
    cases h
    rw [resolve_setP, State.busWrite_setP, storeSource_setP hreg, State.tick_p,
      State.advance_p, State.busWrite_p, resolve_state_p]
    rfl
  | accumulator hf hacc =>
    cases h
    rw [runAccumulator, State.setP_p, modifyBody_setFlag hf _ _ _ _ hg]
    rfl
  | modify base m hf =>
    rw [runModify_eq] at h ⊢
    cases h
    rw [resolve_setP, State.busRead_setP, State.setP_p,
      modifyBody_setFlag hf _ _ _ _ hg, State.busWrite_setP]
    rfl
  | branch disp hc =>
    rw [runBranch_eq] at h ⊢
    cases h
    rw [State.setP_p, branchCond_setFlag hc _ _ hg]
    split <;> rfl
  | implied base hf =>
    cases h
    exact congrArg (fun u => Host.Outcome.next (u.tick base))
      (impliedBody_setFlag hf hm (s.advance 1) b hg)
  | jmpAbs w hi =>
    cases h
    rfl
  | jmpInd w hi =>
    cases h
    have hr : ((s.setP (setFlag s.p g b)).advance 3).read16Ind w = _ :=
      State.read16Ind_setP (s := s.advance 3) _ w
    rw [execJmpInd, hr, State.tick_p, State.setPc_p, State.read16Ind_p]
    rfl
  | jsr w hi =>
    cases h
    have hpush : ((s.setP (setFlag s.p g b)).advance 3).pushWord (s.pc + 2) = _ :=
      State.pushWord_setP (s := s.advance 3) _ _
    rw [execJsr, State.setP_pc, hpush, State.tick_p, State.setPc_p, State.pushWord_p]
    rfl
  | brk hi => exact absurd (by rw [hi]; decide) hm

end Sys2Proof.Machine
end

section
/-! PROOFS. The address map: the regions of R51 that the laws of the bus leave out, what every address
falls under, and that the page table of R58 says the same. -/

namespace Sys2Proof.Machine

variable {cfg : Config} {a : Addr}

/-! ## The regions -/

/-- An address of the graphics window is a register, its number the address modulo 8 (R54). -/
theorem translate_gfx (cfg : Config) (h1 : 0x2000 ≤ a.toNat) (h2 : a.toNat ≤ 0x3FFF) :
    translateAddr cfg a = .gfx (BitVec.ofNat 3 (a.toNat % 8)) := by
  rw [translateAddr, if_neg (by omega), if_pos (by omega)]
  refine congrArg Target.gfx (BitVec.eq_of_toNat_eq ?_)
  simp

/-- Between the graphics window and save RAM nothing answers (R55). -/
theorem translate_unmapped (cfg : Config) (h1 : 0x4000 ≤ a.toNat) (h2 : a.toNat ≤ 0x5FFF) :
    translateAddr cfg a = .openBus := by
  rw [translateAddr, if_neg (by omega), if_neg (by omega), if_pos (by omega)]

/-- The save-RAM window, whether the buffer is there or not (R55, R56). -/
theorem translate_sramWindow (cfg : Config) (h1 : 0x6000 ≤ a.toNat) (h2 : a.toNat ≤ 0x7FFF) :
    translateAddr cfg a =
      if cfg.sramSize = 0 then .openBus else .cell .sram ((a.toNat - 0x6000) % cfg.sramSize) := by
  rw [translateAddr, if_neg (by omega), if_neg (by omega), if_neg (by omega), if_pos (by omega)]

/-- The five regions of the map (R51). -/
theorem region_cases (a : Addr) :
    a.toNat < 0x2000 ∨ (0x2000 ≤ a.toNat ∧ a.toNat ≤ 0x3FFF) ∨
    (0x4000 ≤ a.toNat ∧ a.toNat ≤ 0x5FFF) ∨ (0x6000 ≤ a.toNat ∧ a.toNat ≤ 0x7FFF) ∨
    0x8000 ≤ a.toNat := by
  omega

/-- Nothing answers at an address exactly where R55 says so. -/
theorem translate_eq_openBus_iff :
    translateAddr cfg a = .openBus ↔
      (0x4000 ≤ a.toNat ∧ a.toNat ≤ 0x5FFF) ∨
      (0x6000 ≤ a.toNat ∧ a.toNat ≤ 0x7FFF ∧ cfg.sramSize = 0) := by
  rcases region_cases a with h | ⟨h1, h2⟩ | ⟨h1, h2⟩ | ⟨h1, h2⟩ | h
  · rw [translate_wram cfg h]
    exact iff_of_false nofun (by omega)
  · rw [translate_gfx cfg h1 h2]
    exact iff_of_false nofun (by omega)
  · exact iff_of_true (translate_unmapped cfg h1 h2) (.inl ⟨h1, h2⟩)
  · rw [translate_sramWindow cfg h1 h2]
    split_ifs with h0
    · exact iff_of_true rfl (.inr ⟨h1, h2, h0⟩)
    · exact iff_of_false nofun (by omega)
  · rw [translate_prg cfg h]
    exact iff_of_false nofun (by omega)

/-- A graphics register answers at an address exactly where R54 says so. -/
theorem translate_eq_gfx_iff {r : BitVec 3} :
    translateAddr cfg a = .gfx r ↔
      0x2000 ≤ a.toNat ∧ a.toNat ≤ 0x3FFF ∧ r.toNat = a.toNat % 8 := by
  rcases region_cases a with h | ⟨h1, h2⟩ | ⟨h1, h2⟩ | ⟨h1, h2⟩ | h
  · rw [translate_wram cfg h]
    exact iff_of_false nofun (by omega)
  · rw [translate_gfx cfg h1 h2, Target.gfx.injEq, ← BitVec.toNat_inj, BitVec.toNat_ofNat]
    omega
  · rw [translate_unmapped cfg h1 h2]
    exact iff_of_false nofun (by omega)
  · rw [translate_sramWindow cfg h1 h2]
    split_ifs <;> exact iff_of_false nofun (by omega)
  · rw [translate_prg cfg h]
    exact iff_of_false nofun (by omega)

/-- Settles O6: region by region. -/
theorem openBusAndGraphicsWindowAddresses : Obligations.OpenBusAndGraphicsWindowAddresses :=
  fun _ _ => ⟨translate_eq_openBus_iff, fun _ => translate_eq_gfx_iff⟩

/-! ## The page table -/

/-- A buffer of whole pages repeats page by page: the offset in the page is not reduced. -/
theorem add_mod_of_pages {n size low : Nat} (hn : 256 ∣ n) (hs : 256 ∣ size) (hlow : low < 256) :
    (n + low) % size = n % size + low := by
  obtain ⟨k, rfl⟩ := hn
  obtain ⟨m, rfl⟩ := hs
  have hmod : (256 * k + low) % 256 = low := by omega
  have hdiv : (256 * k + low) / 256 = k := by omega
  rw [Nat.mod_mul, hmod, hdiv, Nat.mul_mod_mul_left, Nat.add_comm]

/-- The same for the address `a` of a window that starts at page `page`. -/
theorem window_mod_of_pages {page size : Nat} (hs : 256 ∣ size) (ha : page * 256 ≤ a.toNat) :
    ((hiByte a).toNat - page) * 256 % size + (loByte a).toNat = (a.toNat - page * 256) % size := by
  have hhi := toNat_hiByte a
  have hlo := toNat_loByte a
  rw [← add_mod_of_pages (Nat.dvd_mul_left ..) hs (by omega)]
  congr 1
  omega

/-- Settles O5: region by region; save RAM and program ROM have whole pages. -/
theorem pageTableAgreesWithTranslate : Obligations.PageTableAgreesWithTranslate := by
  intro cfg a hvalid
  have hsram : 256 ∣ cfg.sramSize := by
    simp only [Config.valid, Bool.and_eq_true, decide_eq_true_eq] at hvalid
    omega
  have hprg : 256 ∣ cfg.prgSize := by
    rw [Config.prgSize]
    omega
  have hhi := toNat_hiByte a
  have hlo := toNat_loByte a
  rw [pageEntry]
  rcases region_cases a with h | ⟨h1, h2⟩ | ⟨h1, h2⟩ | ⟨h1, h2⟩ | h
  · rw [translate_wram cfg h, if_pos (by omega)]
    exact congrArg (Target.cell .wram) (by omega)
  · rw [translate_gfx cfg h1 h2, if_neg (by omega), if_pos (by omega)]
    refine congrArg Target.gfx (BitVec.eq_of_toNat_eq ?_)
    rw [BitVec.toNat_setWidth, BitVec.toNat_ofNat]
    omega
  · rw [translate_unmapped cfg h1 h2, if_neg (by omega), if_neg (by omega), if_pos (by omega)]
    rfl
  · rw [translate_sramWindow cfg h1 h2, if_neg (by omega), if_neg (by omega), if_neg (by omega),
      if_pos (by omega)]
    split_ifs
    · rfl
    · exact congrArg (Target.cell .sram) (window_mod_of_pages hsram h1)
  · rw [translate_prg cfg h, if_neg (by omega), if_neg (by omega), if_neg (by omega),
      if_neg (by omega)]
    exact congrArg (Target.cell .prg) (window_mod_of_pages hprg h)

end Sys2Proof.Machine
end

section
/-! PROOFS. Storage behind the bus: what mirrors share, what a sequence of writes leaves, what a write
beside RAM leaves. -/

namespace Sys2Proof.Machine

variable {s : State} {a b : Addr}

/-- Addresses that reach one cell read the same byte (R66). -/
theorem State.busRead_of_same_cell {c : Buffer} {i : Nat} (ha : translateAddr s.cfg a = .cell c i)
    (hb : translateAddr s.cfg b = .cell c i) : (s.busRead a).1 = (s.busRead b).1 := by
  rw [State.busRead_cell ha, State.busRead_cell hb]

/-- A byte written to RAM is read back through every address that reaches its cell (R61, R66). -/
theorem State.busRead_busWrite_of_same_cell (v : Byte)
    (h : translateAddr s.cfg b = translateAddr s.cfg a) (hram : (translateAddr s.cfg a).isRam = true) :
    ((s.busWrite a v).busRead b).1 = v := by
  have hpeek : (s.busWrite a v).peek b = some v := by rw [State.peek_busWrite, if_pos ⟨h, hram⟩]
  rw [State.busRead_of_peek hpeek]

/-! ## Mirrors -/

/-- The four mirrors of a work-RAM address reach the cell of that number (R52). -/
theorem translate_wramMirror (cfg : Config) {k : Nat} (ha : a.toNat < 0x0800) (hk : k < 4) :
    translateAddr cfg (BitVec.ofNat 16 (a.toNat + 0x0800 * k)) = .cell .wram a.toNat := by
  have haddr : (BitVec.ofNat 16 (a.toNat + 0x0800 * k)).toNat = a.toNat + 0x0800 * k := by
    rw [BitVec.toNat_ofNat]
    omega
  rw [translate_wram cfg (by omega), haddr]
  exact congrArg _ (by omega)

/-- Settles O7: all four mirrors translate to one cell. -/
theorem workRamMirrorsShareStorage : Obligations.WorkRamMirrorsShareStorage := by
  intro s a v j k ha hj hk
  have hself : translateAddr s.cfg a = .cell .wram a.toNat := by
    rw [translate_wram s.cfg (by omega), Nat.mod_eq_of_lt ha]
  have hmirror : ∀ {n}, n < 4 → _ := translate_wramMirror s.cfg ha
  refine ⟨State.busRead_of_same_cell (hmirror hk) hself,
    State.busRead_busWrite_of_same_cell v ?_ ?_⟩
  · rw [hmirror hk, hmirror hj]
  · rw [hmirror hj]
    rfl

/-- Settles O8: the two addresses translate to one cell. -/
theorem saveRamMirrorsShareStorage : Obligations.SaveRamMirrorsShareStorage := by
  intro s a b v hsize ha1 ha2 hb1 hb2 hmod
  have ha := translate_sramWindow s.cfg ha1 ha2
  have hb := translate_sramWindow s.cfg hb1 hb2
  rw [if_neg hsize.ne'] at ha hb
  rw [← hmod] at hb
  exact ⟨State.busRead_of_same_cell ha hb,
    State.busRead_busWrite_of_same_cell v (hb.trans ha.symm) (by rw [ha]; rfl)⟩

/-! ## A sequence of writes -/

/-- The state after writing each byte at its address, the first of the list first. -/
def State.busWrites (s : State) (writes : List (Addr × Byte)) : State :=
  writes.foldl (fun u w => u.busWrite w.1 w.2) s

/-- Whether a write stores its byte in the cell behind `a`. -/
def reachesCellOf (cfg : Config) (a : Addr) (w : Addr × Byte) : Bool :=
  decide (translateAddr cfg a = translateAddr cfg w.1) && (translateAddr cfg w.1).isRam

theorem reachesCellOf_iff {cfg : Config} {w : Addr × Byte} :
    reachesCellOf cfg a w = true ↔
      translateAddr cfg a = translateAddr cfg w.1 ∧ (translateAddr cfg w.1).isRam = true := by
  rw [reachesCellOf, Bool.and_eq_true, decide_eq_true_eq]

theorem State.busWrites_concat (s : State) (writes : List (Addr × Byte)) (w : Addr × Byte) :
    s.busWrites (writes ++ [w]) = (s.busWrites writes).busWrite w.1 w.2 := by
  simp only [State.busWrites, List.foldl_append, List.foldl_cons, List.foldl_nil]

theorem State.busWrites_cfg (s : State) (writes : List (Addr × Byte)) :
    (s.busWrites writes).cfg = s.cfg := by
  induction writes using List.reverseRecOn with
  | nil => rfl
  | append_singleton writes w ih => rw [State.busWrites_concat, State.busWrite_cfg, ih]

/-- Storage holds the byte of the last write that reached it, and what was there when none did. -/
theorem State.peek_busWrites (s : State) (writes : List (Addr × Byte)) (a : Addr) :
    (s.busWrites writes).peek a =
      ((writes.reverse.find? (reachesCellOf s.cfg a)).map Prod.snd).or (s.peek a) := by
  induction writes using List.reverseRecOn with
  | nil => rfl
  | append_singleton writes w ih =>
    rw [State.busWrites_concat, State.peek_busWrite, State.busWrites_cfg, List.reverse_concat,
      List.find?_cons]
    by_cases hw : reachesCellOf s.cfg a w = true
    · simp only [if_pos (reachesCellOf_iff.mp hw), hw, Option.map_some, Option.some_or]
    · simp only [if_neg (mt reachesCellOf_iff.mpr hw), hw, ih]

/-- Settles O9: a read of storage returns what is stored, which `State.peek_busWrites` gives. -/
theorem readReturnsTheLastWrite : Obligations.ReadReturnsTheLastWrite := by
  intro s writes a before hbefore
  have hpeek := s.peek_busWrites writes a
  split
  next w hw =>
    change writes.reverse.find? (reachesCellOf s.cfg a) = some w at hw
    rw [hw] at hpeek
    exact congrArg Prod.fst (State.busRead_of_peek hpeek)
  next hnone =>
    change writes.reverse.find? (reachesCellOf s.cfg a) = none at hnone
    rw [hnone, hbefore] at hpeek
    exact congrArg Prod.fst (State.busRead_of_peek hpeek)

/-! ## Program ROM and open bus -/

theorem State.busWrite_openBus (v : Byte) (h : translateAddr s.cfg a = .openBus) :
    s.busWrite a v = s.setLatch v := by
  simp only [State.busWrite, h]

/-- Settles O10: a store in program ROM stores nothing, and open bus has no cell. -/
theorem romAndOpenBusKeepTheirContents : Obligations.RomAndOpenBusKeepTheirContents :=
  fun s _ v => ⟨fun h => State.busWrite_cell v (translate_prg s.cfg h),
    fun h => ⟨State.busWrite_openBus v h, State.busRead_openBus h⟩⟩

end Sys2Proof.Machine
end

section
/-! PROOFS. The co-processor behind the bus: the catch-up, the accesses in the graphics window, and what
the graphics banks and the mapper number do not reach. -/

namespace Sys2Proof.Machine

variable {s : State} {a : Addr}

/-! ## The catch-up -/

/-- Nothing happens when the co-processor is not behind (R62). -/
theorem State.catchUp_of_le (h : s.cpuCycles * s.cfg.ppuPerCpu ≤ s.ppuCycles) : s.catchUp = s :=
  if_neg (Nat.not_lt.mpr h)

/-- A co-processor that is behind is handed the CPU's time, which it takes when its own time is its
counter (R33, R62). -/
theorem State.catchUp_of_lt (htime : ppuTime s.ppu = s.ppuCycles)
    (h : s.ppuCycles < s.cpuCycles * s.cfg.ppuPerCpu) :
    s.catchUp = s.setPpu (.catchUp (s.cpuCycles * s.cfg.ppuPerCpu) :: s.ppu)
      (s.cpuCycles * s.cfg.ppuPerCpu) := by
  rw [State.catchUp, if_pos h, ppuCatchUp, if_neg (by omega)]

theorem State.catchUp_ppuCycles (s : State) :
    s.catchUp.ppuCycles = max s.ppuCycles (s.cpuCycles * s.cfg.ppuPerCpu) := by
  rcases s.catchUp_cases with ⟨hlt, h⟩ | ⟨hle, h⟩ <;> rw [h]
  · exact (Nat.max_eq_right hlt.le).symm
  · exact (Nat.max_eq_left hle).symm

/-- After a catch-up the co-processor is not behind (R62). -/
theorem State.le_catchUp_ppuCycles (s : State) :
    s.cpuCycles * s.cfg.ppuPerCpu ≤ s.catchUp.ppuCycles := by
  rw [State.catchUp_ppuCycles]
  exact Nat.le_max_right ..

theorem State.catchUp_catchUp (s : State) : s.catchUp.catchUp = s.catchUp :=
  State.catchUp_of_le <| by
    rw [State.catchUp_cpuCycles, State.catchUp_cfg]
    exact s.le_catchUp_ppuCycles

/-- Settles O12: the two cases of the catch-up, and that it leaves the co-processor level, so that a
second one has nothing to do. -/
theorem catchUpReachesTheCpuTime : Obligations.CatchUpReachesTheCpuTime :=
  fun s htime => ⟨s.le_catchUp_ppuCycles, s.catchUp_ppuCycles, State.catchUp_of_lt htime,
    State.catchUp_of_le, s.catchUp_catchUp⟩

/-! ## The graphics window -/

/-- A read of a register: catch-up, sample, latch (R62, R63). -/
theorem State.busRead_gfx {r : BitVec 3} (h : translateAddr s.cfg a = .gfx r) :
    s.busRead a = (Config.ppuRegValue s.cfg.chrBanks s.cfg.chr s.catchUp.ppu r,
      { s.catchUp with
        ppu := .read r :: s.catchUp.ppu
        latch := Config.ppuRegValue s.cfg.chrBanks s.cfg.chr s.catchUp.ppu r }) := by
  simp only [State.busRead, h]
  rfl

/-- A write to a register: catch-up, handing over, latch (R62, R64). -/
theorem State.busWrite_gfx {r : BitVec 3} (v : Byte) (h : translateAddr s.cfg a = .gfx r) :
    s.busWrite a v = { s.catchUp with ppu := .write r v :: s.catchUp.ppu, latch := v } := by
  simp only [State.busWrite, h]
  rfl

/-- Settles O13: every address of the window is a register. -/
theorem graphicsAccessCatchesUpFirst : Obligations.GraphicsAccessCatchesUpFirst := by
  intro s a v h1 h2 r s1 d
  have hread := State.busRead_gfx (translate_gfx s.cfg h1 h2)
  have hwrite := State.busWrite_gfx v (translate_gfx s.cfg h1 h2)
  refine ⟨hread, hwrite, ?_, ?_⟩
  · rw [hread]
    exact s.le_catchUp_ppuCycles
  · rw [hwrite]
    exact s.le_catchUp_ppuCycles

/-! ## Other graphics banks, another mapper number -/

/-- The state with other graphics banks and another mapper number. -/
def State.withGraphics (s : State) (banks : Nat) (chr : List Host.Cell) (mapper : Byte) : State :=
  { s with cfg := { s.cfg with chrBanks := banks, chr := chr, mapperId := mapper } }

variable (banks : Nat) (chr : List Host.Cell) (mapper : Byte)

theorem State.cell_withGraphics (b : Buffer) (i : Nat) :
    (s.withGraphics banks chr mapper).cell b i = s.cell b i := by
  cases b <;> rfl

theorem State.catchUp_withGraphics :
    (s.withGraphics banks chr mapper).catchUp = s.catchUp.withGraphics banks chr mapper := by
  rcases s.catchUp_cases with ⟨hlt, h⟩ | ⟨hle, h⟩ <;> rw [h]
  · exact if_pos hlt
  · exact State.catchUp_of_le hle

theorem State.peek_withGraphics (a : Addr) :
    (s.withGraphics banks chr mapper).peek a = s.peek a := by
  simp only [State.peek, State.cell_withGraphics]
  rfl

theorem State.busWrite_withGraphics (a : Addr) (v : Byte) :
    (s.withGraphics banks chr mapper).busWrite a v =
      (s.busWrite a v).withGraphics banks chr mapper := by
  rcases s.busWrite_cases a v with ⟨b, i, ht, h⟩ | ⟨r, ht, -⟩ | ⟨ht, h⟩
  · rw [h, State.busWrite_cell v (s := s.withGraphics banks chr mapper) ht]
    cases b <;> rfl
  · rw [State.busWrite_gfx v ht, State.busWrite_gfx v (s := s.withGraphics banks chr mapper) ht,
      State.catchUp_withGraphics]
    rfl
  · rw [h, State.busWrite_openBus v (s := s.withGraphics banks chr mapper) ht]
    rfl

/-- But for the byte on the bus, a read ends as before. -/
theorem State.busRead_withGraphics_state (a : Addr) :
    ((s.withGraphics banks chr mapper).busRead a).2 =
      ((s.busRead a).2.setLatch ((s.withGraphics banks chr mapper).busRead a).1).withGraphics
        banks chr mapper := by
  rcases s.busRead_cases a with ⟨b, i, ht, h⟩ | ⟨r, ht, -⟩ | ⟨ht, h⟩
  · rw [h, State.busRead_cell (s := s.withGraphics banks chr mapper) ht]
    rfl
  · rw [State.busRead_gfx ht, State.busRead_gfx (s := s.withGraphics banks chr mapper) ht,
      State.catchUp_withGraphics]
    rfl
  · rw [h, State.busRead_openBus (s := s.withGraphics banks chr mapper) ht]
    rfl

/-- The byte read is the same outside the window, and for the same banks in it. -/
theorem State.busRead_withGraphics_byte (a : Addr)
    (hsame : (∀ r, translateAddr s.cfg a ≠ .gfx r) ∨ banks = s.cfg.chrBanks ∧ chr = s.cfg.chr) :
    ((s.withGraphics banks chr mapper).busRead a).1 = (s.busRead a).1 := by
  rcases s.busRead_cases a with ⟨b, i, ht, h⟩ | ⟨r, ht, -⟩ | ⟨ht, h⟩
  · rw [h, State.busRead_cell (s := s.withGraphics banks chr mapper) ht, State.cell_withGraphics]
  · obtain hout | ⟨rfl, rfl⟩ := hsame
    · exact absurd ht (hout r)
    · rw [State.busRead_gfx ht, State.busRead_gfx (s := s.withGraphics _ _ mapper) ht,
        State.catchUp_withGraphics]
      rfl
  · rw [h, State.busRead_openBus (s := s.withGraphics banks chr mapper) ht]
    rfl

/-- Settles O57: the map does not name the three fields, and only a register read looks at the banks. -/
theorem graphicsBanksAndMapperDoNotReachTheBus :
    Obligations.GraphicsBanksAndMapperDoNotReachTheBus :=
  fun _ banks chr mapper a v => ⟨rfl, State.peek_withGraphics banks chr mapper a,
    State.busWrite_withGraphics banks chr mapper a v,
    State.busRead_withGraphics_state banks chr mapper a,
    State.busRead_withGraphics_byte banks chr mapper a⟩

end Sys2Proof.Machine
end

section
/-! PROOFS. The bus accesses of an instruction, said once: none, those of its addressing mode, pushes, or
the two of an indirect jump. What an instruction can do to memory and to the co-processor follows. -/

namespace Sys2Proof.Machine
open Sys2Proof.Claims

/-- `t` has the storage, the co-processor and the configuration of `s`. -/
structure SameBus (s t : State) : Prop where
  wram : t.wram = s.wram
  sram : t.sram = s.sram
  ppu : t.ppu = s.ppu
  ppuCycles : t.ppuCycles = s.ppuCycles
  config : t.cfg = s.cfg

variable {s t u : State} {i : Instr}

theorem SameBus.memKept (h : SameBus s t) : MemKept s t :=
  State.peek_congr h.wram h.sram h.config

theorem SameBus.refl : SameBus s s := ⟨rfl, rfl, rfl, rfl, rfl⟩

/-- Registers and the CPU clock are not on the bus. -/
theorem SameBus.registers (h : SameBus s t) (a p : Byte) (pc : Addr) (n : Nat) :
    SameBus s { t with a := a, p := p, pc := pc, cpuCycles := n } :=
  ⟨h.wram, h.sram, h.ppu, h.ppuCycles, h.config⟩

theorem SameBus.advance (h : SameBus s t) (n : Nat) : SameBus s (t.advance n) := h.registers _ _ _ _
theorem SameBus.setP (h : SameBus s t) (v : Byte) : SameBus s (t.setP v) := h.registers _ _ _ _
theorem SameBus.setPc (h : SameBus s t) (v : Addr) : SameBus s (t.setPc v) := h.registers _ _ _ _
theorem SameBus.tick (h : SameBus s t) (n : Nat) : SameBus s (t.tick n) := h.registers _ _ _ _

theorem SameBus.of_advance {n : Nat} (h : SameBus (s.advance n) t) : SameBus s t :=
  ⟨h.wram, h.sram, h.ppu, h.ppuCycles, h.config⟩

theorem SameBus.resolve (m : MemOperand) : SameBus s (resolve m s).state := by
  constructor <;> simp

/-- How the state `t` after an instruction comes from the state `s` before it, but for registers, latch
and CPU clock: by the bus accesses of its class (R125, R170). -/
inductive Accesses (i : Instr) (s t : State) : Prop where
  | none (h : SameBus s t)
  | read (m : MemOperand) (ho : i.operand = .mem m) (hi : i.mnemonic ∉ [.jmp, .jsr])
      (h : SameBus ((resolve m s).state.busRead (resolve m s).ea).2 t)
  | write (m : MemOperand) (v : Byte) (ho : i.operand = .mem m)
      (hi : i.mnemonic ∈ [.sta, .stx, .sty])
      (h : SameBus ((resolve m s).state.busWrite (resolve m s).ea v) t)
  | modify (m : MemOperand) (v : Byte) (ho : i.operand = .mem m) (hi : i.mnemonic ∈ modifyClass)
      (h : SameBus
        (((resolve m s).state.busRead (resolve m s).ea).2.busWrite (resolve m s).ea v) t)
  | push (hi : i.mnemonic ∈ [.pha, .php, .jsr, .brk]) (hppu : t.ppu = s.ppu)
      (hcycles : t.ppuCycles = s.ppuCycles)
  | pointer (w : Addr) (ho : i.operand = .ind w)
      (h : SameBus ((s.busRead w).2.busRead (indirectHigh s.cfg w)).2 t)

/-! ## The bodies of the classes -/

theorem readBody_sameBus {m : Mnemonic} {f : Byte → State → State} (h : readBody m = some f)
    (v : Byte) (s : State) : SameBus s (f v s) := by
  obtain ⟨a, x, y, p, hf⟩ := readBody_frame h v s
  rw [hf]
  exact ⟨rfl, rfl, rfl, rfl, rfl⟩

/-- An implicit-mode body that pushes nothing pulls from storage or stays off the bus. -/
theorem impliedBody_sameBus {m : Mnemonic} {base : Nat} {f : State → State}
    (h : impliedBody m = some (base, f)) (hm : m ∉ [.pha, .php]) (s : State) : SameBus s (f s) := by
  cases m with
  | pha | php => exact absurd (by decide) hm
  | pla => cases h; constructor <;> simp [State.pull_eq]
  | plp => cases h; constructor <;> simp [State.pull_eq]
  | rts => cases h; constructor <;> simp [State.pullWord_eq]
  | rti => cases h; constructor <;> simp [State.returnFromTrap_eq]
  | _ => cases h <;> exact ⟨rfl, rfl, rfl, rfl, rfl⟩

/-- The other two push on the stack, which lies in work RAM. -/
theorem impliedBody_push_ppu {m : Mnemonic} {base : Nat} {f : State → State}
    (h : impliedBody m = some (base, f)) (hm : m ∈ [.pha, .php]) (s : State) :
    (f s).ppu = s.ppu ∧ (f s).ppuCycles = s.ppuCycles := by
  cases m with
  | pha | php => cases h; simp [State.push_fields]
  | _ => exact absurd hm (by decide)

theorem not_jump_of_readBody {m : Mnemonic} {f : Byte → State → State} (h : readBody m = some f) :
    m ∉ [.jmp, .jsr] := by
  cases m <;> cases h <;> decide

theorem not_jump_of_store : ∀ m ∈ [Mnemonic.sta, .stx, .sty], m ∉ [.jmp, .jsr] := by decide

theorem not_jump_of_modify : ∀ m ∈ modifyClass, m ∉ [.jmp, .jsr] := by decide

theorem mem_stores_of_storeSource {m : Mnemonic} {reg : State → Byte}
    (h : storeSource m = some reg) : m ∈ [.sta, .stx, .sty] := by
  cases m <;> cases h <;> decide

theorem mem_modifyClass_of_modifyBody {m : Mnemonic} {f : Byte → Byte → Byte × Byte}
    (h : modifyBody m = some f) : m ∈ modifyClass := by
  cases m <;> cases h <;> decide

/-- Executing an instruction makes the accesses of its class and no other. -/
theorem exec_accesses (h : exec i s = .next t) : Accesses i s t := by
  rcases class_cases i with ⟨f, hf⟩ | ⟨reg, hreg⟩ | ⟨f, hf⟩ | ⟨cond, hc⟩ | hs
  · rcases exec_read hf with ⟨b1, -, he, -⟩ | ⟨m, ho, base, he, -⟩
    · rw [he] at h
      cases h
      exact .none ((readBody_sameBus hf b1 _).of_advance.tick 2)
    · rw [he, runRead_eq] at h
      cases h
      exact .read m ho (not_jump_of_readBody hf) ((readBody_sameBus hf _ _).of_advance.tick _)
  · obtain ⟨m, ho, base, he, -⟩ := exec_store hreg
    rw [he, runStore_eq] at h
    cases h
    exact .write m _ ho (mem_stores_of_storeSource hreg) ((SameBus.refl.advance _).tick _)
  · rcases exec_modify hf with ⟨-, he, -⟩ | ⟨m, ho, base, he, -⟩
    · rw [he] at h
      cases h
      exact .none (SameBus.refl.registers _ _ _ _)
    · rw [he, runModify_eq] at h
      cases h
      exact .modify m _ ho (mem_modifyClass_of_modifyBody hf)
        (((SameBus.refl.setP _).advance _).tick _)
  · obtain ⟨disp, -, he, -⟩ := exec_branch hc
    rw [he, runBranch_eq] at h
    cases h
    split <;> exact .none ((SameBus.refl.setPc _).tick _)
  · rcases single_forms hs with ⟨base, f, hf⟩ | rfl | ⟨w, rfl⟩ | ⟨w, rfl⟩ | ⟨w, rfl⟩
    · rw [(exec_implied hf).2.1] at h
      cases h
      by_cases hpush : i.mnemonic ∈ [.pha, .php]
      · obtain ⟨hppu, hcycles⟩ := impliedBody_push_ppu hf hpush (s.advance 1)
        exact .push (List.mem_of_mem_take (i := 2) hpush) hppu hcycles
      · exact .none ((impliedBody_sameBus hf hpush _).of_advance.tick base)
    · cases h
      refine .push (by decide) ?_ ?_ <;>
        simp [State.takeTrap_brk, State.push_fields, State.pushWord_fields]
    · cases h
      exact .none (((SameBus.refl.advance 3).setPc w).tick 3)
    · cases h
      refine .pointer w rfl ?_
      simp only [State.read16Ind, State.busRead_advance, State.advance_cfg]
      exact ((SameBus.refl.advance 3).setPc _).tick 5
    · cases h
      refine .push (by simp [Instr.mnemonic]) ?_ ?_ <;> simp [State.pushWord_fields]

/-! ## Memory -/

/-- Settles O43: reads store nothing, and the accesses that do store belong to the instructions named. -/
theorem memoryChangesOnlyByStores : Obligations.MemoryChangesOnlyByStores := by
  intro i s t h hstore hmodify
  cases exec_accesses h with
  | none h => exact h.memKept
  | read m _ _ h => exact fun a => by rw [h.memKept a, State.peek_busRead, State.peek_resolve]
  | write m v _ hi _ => exact absurd (List.mem_of_mem_take (i := 3) hi) hstore
  | modify m v ho hi _ => exact absurd ⟨hi, by simp [ho]⟩ hmodify
  | push hi _ _ => exact absurd (List.mem_of_mem_drop (i := 3) hi) hstore
  | pointer w _ h => exact fun a => by rw [h.memKept a, State.peek_busRead, State.peek_busRead]

/-! ## The co-processor -/

/-- `t` has the co-processor's state and counter of `s`. -/
def PpuKept (s t : State) : Prop := t.ppu = s.ppu ∧ t.ppuCycles = s.ppuCycles

theorem PpuKept.trans (h : PpuKept s t) (h' : PpuKept t u) : PpuKept s u :=
  ⟨h'.1.trans h.1, h'.2.trans h.2⟩

/-- An access outside the graphics window leaves the co-processor alone (R62, R72). -/
theorem PpuKept.busRead {a : Addr} (hc : u.cfg = s.cfg) (ha : ∀ r, translateAddr s.cfg a ≠ .gfx r) :
    PpuKept u (u.busRead a).2 :=
  State.busRead_ppu (hc ▸ ha)

theorem PpuKept.busWrite {a : Addr} (v : Byte) (hc : u.cfg = s.cfg)
    (ha : ∀ r, translateAddr s.cfg a ≠ .gfx r) : PpuKept u (u.busWrite a v) :=
  State.busWrite_ppu v (hc ▸ ha)

theorem SameBus.ppuKept (h : SameBus s t) : PpuKept s t := ⟨h.ppu, h.ppuCycles⟩

/-- Settles O44: each access of the instruction is at an address that the premises keep out of the
window, or in page 0 or 1, which is work RAM. -/
theorem onlyWindowAccessesReachTheCoprocessor : Obligations.OnlyWindowAccessesReachTheCoprocessor := by
  intro i s t h hmem hind
  have hres := SameBus.resolve (s := s)
  cases exec_accesses h with
  | none h => exact h.ppuKept
  | read m ho hi h =>
    have hea := fun r => hmem m r ho hi
    exact ((hres m).ppuKept.trans (.busRead (hres m).config hea)).trans h.ppuKept
  | write m v ho hi h =>
    have hea := fun r => hmem m r ho (not_jump_of_store _ hi)
    exact ((hres m).ppuKept.trans (.busWrite v (hres m).config hea)).trans h.ppuKept
  | modify m v ho hi h =>
    have hea := fun r => hmem m r ho (not_jump_of_modify _ hi)
    exact (((hres m).ppuKept.trans (.busRead (hres m).config hea)).trans
      (.busWrite v (by simp) hea)).trans h.ppuKept
  | push _ hppu hcycles => exact ⟨hppu, hcycles⟩
  | pointer w ho h =>
    have hlow := PpuKept.busRead rfl fun r => (hind w r ho).1
    exact (hlow.trans (.busRead (by simp) fun r => (hind w r ho).2)).trans h.ppuKept

/-- The co-processor's counter never goes back (R231). -/
theorem exec_ppuCycles_le (h : exec i s = .next t) : s.ppuCycles ≤ t.ppuCycles := by
  cases exec_accesses h with
  | none h => exact h.ppuCycles.ge
  | read m _ _ h =>
    rw [h.ppuCycles, ← resolve_state_ppuCycles s m]
    exact State.busRead_ppuCycles_le _
  | write m v _ _ h =>
    rw [h.ppuCycles, ← resolve_state_ppuCycles s m]
    exact State.busWrite_ppuCycles_le _ v
  | modify m v _ _ h =>
    rw [h.ppuCycles, ← resolve_state_ppuCycles s m]
    exact (State.busRead_ppuCycles_le _).trans (State.busWrite_ppuCycles_le _ v)
  | push _ _ hcycles => exact hcycles.ge
  | pointer w _ h =>
    rw [h.ppuCycles]
    exact (State.busRead_ppuCycles_le _).trans (State.busRead_ppuCycles_le _)

end Sys2Proof.Machine
end

section
/-! PROOFS. The clock: every instruction answers a next state 2 to 8 cycles later, and so every step of a
core that it leaves running. -/

namespace Sys2Proof.Machine

variable {s : State}

/-! ## Costs -/

theorem opcodeTable_base_bounds : ∀ r ∈ opcodeTable, 2 ≤ r.base ∧ r.base ≤ 7 := by
  decide +kernel

/-- The base costs of the table are 2 to 7 cycles (R94, R262). -/
theorem instr_base_bounds (i : Instr) : 2 ≤ i.base ∧ i.base ≤ 7 := by
  have hrow : (opcodeRow? i.opcode).isSome = true := by
    cases i <;> simp only [Instr.opcode] <;> rfl
  obtain ⟨r, hr⟩ := Option.isSome_iff_exists.mp hrow
  rw [base_of_opcode rfl hr]
  exact opcodeTable_base_bounds r (opcodeRow?_spec hr).1

theorem pagePenalty_le (base ea : Addr) : pagePenalty base ea ≤ 1 := by
  rw [pagePenalty]
  split <;> decide

theorem resolve_penalty_le (m : MemOperand) (s : State) : (resolve m s).penalty ≤ 1 := by
  cases m with
  | absx w | absy w | indy b1 => exact pagePenalty_le ..
  | _ => exact Nat.zero_le 1

theorem readBody_cpuCycles {m : Mnemonic} {f : Byte → State → State} (h : readBody m = some f)
    (v : Byte) (s : State) : (f v s).cpuCycles = s.cpuCycles := by
  obtain ⟨a, x, y, p, hf⟩ := readBody_frame h v s
  rw [hf]

theorem impliedBody_cpuCycles {m : Mnemonic} {base : Nat} {f : State → State}
    (h : impliedBody m = some (base, f)) (s : State) : (f s).cpuCycles = s.cpuCycles := by
  cases m <;> cases h <;>
    simp [State.push_fields, State.pull_eq, State.pullWord_eq, State.returnFromTrap_eq, writeFlag]

/-- Every instruction answers a next state, 2 to 8 cycles later (R136, R220). -/
theorem exec_answers (i : Instr) (s : State) : ∃ t cost, exec i s = .next t ∧
    t.cpuCycles = s.cpuCycles + cost ∧ 2 ≤ cost ∧ cost ≤ 8 := by
  have hbase := instr_base_bounds i
  rcases class_cases i with ⟨f, hf⟩ | ⟨reg, hreg⟩ | ⟨f, hf⟩ | ⟨cond, hc⟩ | hs
  · rcases exec_read hf with ⟨b1, -, he, -⟩ | ⟨m, -, base, he, rfl⟩
    · exact ⟨_, 2, he s, congrArg (· + 2) (readBody_cpuCycles hf b1 _), by decide, by decide⟩
    · have hpen := resolve_penalty_le m s
      refine ⟨_, i.base + (resolve m s).penalty, (he s).trans (runRead_eq ..), ?_, by omega,
        by omega⟩
      simp [readBody_cpuCycles hf]
  · obtain ⟨m, -, base, he, rfl⟩ := exec_store hreg
    have hpen := resolve_penalty_le m s
    refine ⟨_, i.base + (resolve m s).penalty, (he s).trans (runStore_eq ..), ?_, by omega,
      by omega⟩
    simp
  · rcases exec_modify hf with ⟨-, he, -⟩ | ⟨m, -, base, he, rfl⟩
    · exact ⟨_, 2, he s, rfl, by decide, by decide⟩
    · have hpen := resolve_penalty_le m s
      refine ⟨_, i.base + (resolve m s).penalty, (he s).trans (runModify_eq ..), ?_, by omega,
        by omega⟩
      simp
  · obtain ⟨disp, -, he, -⟩ := exec_branch hc
    have hpen := pagePenalty_le (s.pc + 2) (relTarget (s.pc + 2) disp)
    rw [he, runBranch_eq]
    split
    · exact ⟨_, 3 + pagePenalty (s.pc + 2) (relTarget (s.pc + 2) disp), rfl, rfl, by omega,
        by omega⟩
    · exact ⟨_, 2, rfl, rfl, by decide, by decide⟩
  · rcases single_forms hs with ⟨base, f, hf⟩ | rfl | ⟨w, rfl⟩ | ⟨w, rfl⟩ | ⟨w, rfl⟩
    · obtain ⟨-, he, rfl⟩ := exec_implied hf
      exact ⟨_, i.base, he s, congrArg (· + i.base) (impliedBody_cpuCycles hf _), hbase.1,
        by omega⟩
    · refine ⟨_, 7, rfl, ?_, by decide, by decide⟩
      simp [State.takeTrap_brk, State.push_fields, State.pushWord_fields]
    · exact ⟨_, 3, rfl, rfl, by decide, by decide⟩
    · refine ⟨_, 5, rfl, ?_, by decide, by decide⟩
      simp [State.read16Ind]
    · refine ⟨_, 6, rfl, ?_, by decide, by decide⟩
      simp [State.pushWord_fields]

/-! ## The step -/

/-- No step of an admissible configuration stops with a fault or a refusal (R59, R220). -/
theorem step_answers (hvalid : s.cfg.valid = true) : ∃ t, step s = .next t := by
  simp only [step, hvalid]
  split
  · exact ⟨_, rfl⟩
  · split
    · obtain ⟨t, cost, ht, -⟩ := exec_answers _ s.fetch.2
      exact ⟨t, ht⟩
    · exact ⟨_, rfl⟩

/-- Settles O51, by the cases of a step: the fetch and the halt leave the CPU's clock alone, and an
instruction advances it. -/
theorem stepAlwaysAnswersAndClocksAdvance : Obligations.StepAlwaysAnswersAndClocksAdvance := by
  intro s hvalid
  obtain ⟨t, ht⟩ := step_answers hvalid
  obtain ⟨-, -, -, -, -, -, -, -, hcycles, hhalt, hcfg, hppu, -⟩ := s.fetch_frame
  refine ⟨t, ht, ?_⟩
  rcases step_cases ht with ⟨hrec, rfl⟩ | ⟨hrun, i, rest, -, he⟩ | ⟨-, -, rfl⟩
  · exact ⟨rfl, Nat.le_refl _, .inr ⟨hrec, rfl⟩⟩
  · have hk := exec_keeps he
    obtain ⟨t', cost, ht', hcost, hmin, hmax⟩ := exec_answers i s.fetch.2
    obtain rfl : t = t' := Host.Outcome.next.inj (he.symm.trans ht')
    refine ⟨hk.config.trans hcfg, hppu.trans (exec_ppuCycles_le he),
      .inl ⟨hk.halt.trans (hhalt.trans hrun), ?_, ?_⟩⟩ <;> omega
  · exact ⟨hcfg, hppu, .inr ⟨nofun, hcycles⟩⟩

end Sys2Proof.Machine
end

section
/-! PROOFS. The encoding: every instruction's encoding decodes to it, by its format (R92), and whatever
decodes is the encoding of what it decodes to. -/

namespace Sys2Proof.Laws.TableRow

/-- The row of the table found for an instruction's opcode is the instruction's own (R94, R96). -/
theorem statement (i : Instr) : Statement i := by
  cases i
  exacts [ldaImm _, ldaZp _, ldaZpX _, ldaAbs _, ldaAbsX _, ldaAbsY _, ldaIndX _, ldaIndY _,
    ldxImm _, ldxZp _, ldxZpY _, ldxAbs _, ldxAbsY _, ldyImm _, ldyZp _, ldyZpX _, ldyAbs _,
    ldyAbsX _, staZp _, staZpX _, staAbs _, staAbsX _, staAbsY _, staIndX _, staIndY _, stxZp _,
    stxZpY _, stxAbs _, styZp _, styZpX _, styAbs _, tax, tay, txa, tya, tsx, txs, adcImm _,
    adcZp _, adcZpX _, adcAbs _, adcAbsX _, adcAbsY _, adcIndX _, adcIndY _, sbcImm _, sbcZp _,
    sbcZpX _, sbcAbs _, sbcAbsX _, sbcAbsY _, sbcIndX _, sbcIndY _, andImm _, andZp _, andZpX _,
    andAbs _, andAbsX _, andAbsY _, andIndX _, andIndY _, oraImm _, oraZp _, oraZpX _, oraAbs _,
    oraAbsX _, oraAbsY _, oraIndX _, oraIndY _, eorImm _, eorZp _, eorZpX _, eorAbs _, eorAbsX _,
    eorAbsY _, eorIndX _, eorIndY _, cmpImm _, cmpZp _, cmpZpX _, cmpAbs _, cmpAbsX _, cmpAbsY _,
    cmpIndX _, cmpIndY _, cpxImm _, cpxZp _, cpxAbs _, cpyImm _, cpyZp _, cpyAbs _, bitZp _,
    bitAbs _, incZp _, incZpX _, incAbs _, incAbsX _, decZp _, decZpX _, decAbs _, decAbsX _, inx,
    iny, dex, dey, aslAcc, aslZp _, aslZpX _, aslAbs _, aslAbsX _, lsrAcc, lsrZp _, lsrZpX _,
    lsrAbs _, lsrAbsX _, rolAcc, rolZp _, rolZpX _, rolAbs _, rolAbsX _, rorAcc, rorZp _, rorZpX _,
    rorAbs _, rorAbsX _, bcc _, bcs _, beq _, bne _, bmi _, bpl _, bvc _, bvs _, jmpAbs _, jmpInd _,
    jsr _, rts, pha, pla, php, plp, clc, sec, cli, sei, clv, cld, sed, brk, rti, nop]

end Sys2Proof.Laws.TableRow

namespace Sys2Proof

/-- The decoder undoes the encoder. The cases are the formats of R92: no operand byte, a displacement,
a 16-bit address, and for the rest one byte; the opcode is written out so that the table answers its
row. -/
theorem decode_encode (i : Instr) (rest : List Byte) (h : i.wellFormed = true) :
    decode (encode i ++ rest) = .decoded i rest := by
  rw [encode]
  cases i with simp only [Instr.opcode]
  | tax | tay | txa | tya | tsx | txs | inx | iny | dex | dey | rts | pha | pla | php | plp | clc
  | sec | cli | sei | clv | cld | sed | brk | rti | nop | aslAcc | lsrAcc | rolAcc | rorAcc =>
    exact decode_f1 rfl
  | bcc disp | bcs disp | beq disp | bne disp | bmi disp | bpl disp | bvc disp | bvs disp =>
    exact decode_f2rel h rfl
  | ldaAbs w | ldxAbs w | ldyAbs w | staAbs w | stxAbs w | styAbs w | adcAbs w | sbcAbs w
  | andAbs w | oraAbs w | eorAbs w | cmpAbs w | cpxAbs w | cpyAbs w | bitAbs w | incAbs w
  | decAbs w | aslAbs w | lsrAbs w | rolAbs w | rorAbs w | ldaAbsX w | ldyAbsX w | staAbsX w
  | adcAbsX w | sbcAbsX w | andAbsX w | oraAbsX w | eorAbsX w | cmpAbsX w | incAbsX w | decAbsX w
  | aslAbsX w | lsrAbsX w | rolAbsX w | rorAbsX w | ldaAbsY w | ldxAbsY w | staAbsY w | adcAbsY w
  | sbcAbsY w | andAbsY w | oraAbsY w | eorAbsY w | cmpAbsY w | jmpAbs w | jmpInd w | jsr w =>
    exact decode_f3 w rfl
  | _ b1 => exact decode_f2 b1 rfl

/-- Bytes that are an encoding decode to its instruction, with nothing left over. -/
theorem decode_of_encode_eq {i : Instr} {bytes : List Byte} (h : encode i = bytes)
    (hwf : i.wellFormed = true) : decode bytes = .decoded i [] := by
  rw [← h, ← (encode i).append_nil]
  exact decode_encode i [] hwf

/-- Settles O1, by the format of each instruction. -/
theorem decodeOfEncodeIsTheInstruction : Obligations.DecodeOfEncodeIsTheInstruction :=
  decode_encode

/-- An instruction with opcode `op`, operand bytes `ops` and the length of those is encoded as them. -/
theorem encode_of_parts {i : Instr} {op : Byte} {ops : List Byte} (rest : List Byte)
    (h : i.opcode = op ∧ i.operand.bytes = ops ∧ i.wellFormed = true ∧ i.length = ops.length + 1) :
    i.wellFormed = true ∧ op :: (ops ++ rest) = encode i ++ rest ∧ (encode i).length = i.length := by
  obtain ⟨rfl, rfl, hwf, hlen⟩ := h
  exact ⟨hwf, rfl, hlen.symm⟩

/-- Whatever a row builds is well formed, and its encoding is the opcode with the operand bytes used;
the cases are the formats of R92. -/
theorem Row.build_decoded {r : Row} {op : Byte} {operands rest : List Byte} {i : Instr}
    (hr : r.form.BuildsFor op) (h : r.build operands = .decoded i rest) :
    i.wellFormed = true ∧ op :: operands = encode i ++ rest ∧ (encode i).length = i.length := by
  unfold Row.build at h
  split at h <;> cases h
  next hform =>
    rw [hform] at hr
    exact encode_of_parts rest hr
  next make b1 hform =>
    rw [hform] at hr
    exact encode_of_parts rest (hr b1)
  next make b1 hform =>
    rw [hform] at hr
    exact encode_of_parts (ops := [b1]) rest
      (by simpa [dispInRange_toInt] using hr b1.toInt)
  next make b1 b2 hform =>
    rw [hform] at hr
    exact encode_of_parts (ops := [b1, b2]) rest (by simpa using hr (wordOf b1 b2))

/-- What decodes is well formed, and its encoding is the bytes consumed (R92, R93, R100). -/
theorem decode_decoded {bytes rest : List Byte} {i : Instr} (h : decode bytes = .decoded i rest) :
    i.wellFormed = true ∧ bytes = encode i ++ rest ∧ (encode i).length = i.length := by
  unfold decode at h
  split at h
  next => cases h
  next op operands =>
    split at h
    next => cases h
    next r hr => exact Row.build_decoded (opcodeRow?_spec hr).2.2 h

/-- An encoding is as long as its instruction's mode says (R90, R91). -/
theorem encode_length (i : Instr) : (encode i).length = i.length := by
  obtain ⟨r, -, -, -, -, -, hlen⟩ := Laws.TableRow.statement i
  exact hlen

/-- Settles O2: the first half is what decoding says, the second the row of each instruction. -/
theorem decodedBytesAreTheEncoding : Obligations.DecodedBytesAreTheEncoding := by
  refine ⟨fun _ _ _ => decode_decoded, fun i => ⟨rfl, ?_⟩⟩
  obtain ⟨r, hr, hop, hm, hmode, hbase, -⟩ := Laws.TableRow.statement i
  exact ⟨r, hr, hop, hm, hmode, hbase⟩

/-- Settles O3, by running through the 256 opcodes. -/
theorem unassignedOpcodesAreTheListed105 : Obligations.UnassignedOpcodesAreTheListed105 :=
  ⟨rfl, by decide +kernel⟩

/-- Settles O4: each line's bytes are the encoding of its instruction, and O1 decodes them. -/
theorem workedEncodingsDecode : Obligations.WorkedEncodingsDecode := by
  and_intros <;> exact decode_of_encode_eq (by decide) (by decide)

end Sys2Proof
end

section
/-! PROOFS. The step on fetched bytes that are an encoding: the fetch reads as many bytes as the
instruction has, and the step executes it (R90, R111, R129). -/

namespace Sys2Proof.Machine

variable {s t : State} {i : Instr}

/-- A step of a running core executes what its fetched bytes decode to (R110, R111). -/
theorem step_of_decoded {rest : List Byte} (hvalid : s.cfg.valid = true) (hrun : s.halted = none)
    (hd : decode s.fetch.1 = .decoded i rest) : step s = exec i s.fetch.2 := by
  simp only [step, hvalid, hrun, hd]

/-- After the opcode of `i` the fetch reads on to the length of `i` (R90, R111). -/
theorem State.fetch_eq_readBytes (hop : (s.busRead s.pc).1 = i.opcode) :
    s.fetch = s.readBytes i.length s.pc := by
  obtain ⟨r, hr, -, -, hmode, -⟩ := Laws.TableRow.statement i
  rw [State.fetch_row (hop ▸ hr), hmode, Instr.length, Nat.add_comm, State.readBytes_succ]

/-- When the bytes at `PC` read as the encoding of `i`, the step is its execution in the state the reads
left. -/
theorem step_of_readBytes (hvalid : s.cfg.valid = true) (hrun : s.halted = none)
    (hwf : i.wellFormed = true) (hread : s.readBytes i.length s.pc = (encode i, t)) :
    step s = exec i t := by
  have hop : (s.busRead s.pc).1 = i.opcode := by
    rw [Instr.length, Nat.add_comm, State.readBytes_succ, encode] at hread
    exact (List.cons.inj (congrArg Prod.fst hread)).1
  have hfetch := (State.fetch_eq_readBytes hop).trans hread
  rw [step_of_decoded hvalid hrun (decode_of_encode_eq (congrArg Prod.fst hfetch).symm hwf), hfetch]

/-- Settles O47: stored bytes are read as they are and leave the last of them in the latch; elsewhere the
1, 2 or 3 reads are given. Either way the reads are the encoding. -/
theorem stepExecutesTheStoredInstruction : Obligations.StepExecutesTheStoredInstruction := by
  constructor
  · intro s i hvalid hrun hwf hstored
    refine step_of_readBytes hvalid hrun hwf ?_
    rw [State.readBytes_of_peek i.length s s.pc (encode i) (encode_length i) hstored, if_neg]
    · rfl
    · simp [Instr.length]
  · intro s i hvalid hrun hwf
    refine ⟨fun h => ?_, fun h => ?_, fun h => ?_⟩ <;>
      refine step_of_readBytes hvalid hrun hwf ?_ <;>
      rw [← encode_length i, h] <;>
      simp [BitVec.add_assoc]

end Sys2Proof.Machine
end

section
/-! PROOFS. The branches: the relative target and the page-crossing penalty as numbers (R118, R126), and
what the eight branches do (R185). -/

namespace Sys2Proof.Machine
open Sys2Proof.Claims

variable {s : State} {i : Instr}

/-- The target of relative mode is the displacement from the next instruction modulo 65536 (R118). -/
theorem toNat_relTarget (next : Addr) (disp : Int) :
    ((relTarget next disp).toNat : Int) = ((next.toNat : Int) + disp) % 65536 := by
  simp only [relTarget, BitVec.toNat_add, BitVec.toNat_ofInt]
  omega

theorem relTarget_eq_ofInt (next : Addr) (disp : Int) :
    relTarget next disp = BitVec.ofInt 16 (((next.toNat : Int) + disp) % 65536) := by
  apply BitVec.eq_of_toNat_eq
  have h := toNat_relTarget next disp
  rw [BitVec.toNat_ofInt]
  omega

/-- The penalty of a taken branch is for a target in another page than the next instruction (R126,
R185). -/
theorem pagePenalty_relTarget (next : Addr) (disp : Int) :
    pagePenalty next (relTarget next disp) =
      if ((next.toNat : Int) + disp) % 65536 / 256 = (next.toNat : Int) / 256 then 0 else 1 := by
  have h := toNat_relTarget next disp
  simp only [pagePenalty, ← BitVec.toNat_inj, toNat_hiByte, ← h]
  norm_cast

/-- A listed branch is taken exactly when its flag has the value listed (R186 to R193). -/
theorem exec_of_mem_branches : ∀ e ∈ branches, ∀ (disp : Int) (s : State),
    exec (e.1 disp) s = runBranch (fun p => flag p e.2.1 == e.2.2) disp s := by
  simp only [branches, List.forall_mem_cons, beq_true, beq_false]
  exact ⟨fun _ _ => rfl, fun _ _ => rfl, fun _ _ => rfl, fun _ _ => rfl, fun _ _ => rfl,
    fun _ _ => rfl, fun _ _ => rfl, fun _ _ => rfl, nofun⟩

/-- An instruction that only moves `PC` and takes its cycles changes nothing else. -/
theorem completes_of_setPc_tick {pc : Addr} {cost : Nat}
    (h : exec i s = .next ((s.setPc pc).tick cost)) :
    ∃ t, Completes i s s t cost pc ∧ MemKept s t ∧ RegsKept s t ∧ t.p = s.p :=
  ⟨_, ⟨h, rfl, rfl, rfl, rfl, rfl, rfl, rfl⟩, fun a => by simp, ⟨rfl, rfl, rfl, rfl⟩, rfl⟩

/-- Settles O28: taken or not, a branch only moves `PC` and takes its cycles. -/
theorem branchesTestOneFlag : Obligations.BranchesTestOneFlag := by
  refine ⟨rfl, rfl, rfl, rfl, rfl, rfl, rfl, rfl, fun e he disp s _ _ => ?_⟩
  have hnext : (s.pc + 2).toNat = (s.pc.toNat + 2) % 65536 := BitVec.toNat_add s.pc 2
  apply completes_of_setPc_tick
  rw [exec_of_mem_branches e he, runBranch_eq, pagePenalty_relTarget, relTarget_eq_ofInt, hnext]
  cases flag s.p e.2.1 == e.2.2
  case true =>
    simp only [if_true]
    split <;> rfl
  case false =>
    rw [← hnext, BitVec.ofNat_toNat, BitVec.setWidth_eq]
    rfl

end Sys2Proof.Machine
end

section
/-! PROOFS. The addressing modes: effective addresses and penalties as numbers, the pointers of page 0, and
the state the resolver leaves (R115 to R126). -/

namespace Sys2Proof.Machine

variable {s : State}

/-! ## Addresses without a pointer -/

/-- An indexed zero-page address wraps within page 0 (R116, R117). -/
theorem toNat_zeroPage_add (b1 index : Byte) :
    (zeroPage (b1 + index)).toNat = (b1.toNat + index.toNat) % 256 := by
  rw [toNat_zeroPage, BitVec.toNat_add]

/-- Settles O14: none of the four modes reads the bus, and the indexed ones wrap in page 0. -/
theorem zeroPageAndAbsoluteAddresses : Obligations.ZeroPageAndAbsoluteAddresses :=
  fun s b1 _ => ⟨⟨toNat_zeroPage b1, rfl, rfl⟩, ⟨toNat_zeroPage_add b1 s.x, rfl, rfl⟩,
    ⟨toNat_zeroPage_add b1 s.y, rfl, rfl⟩, rfl, rfl, rfl⟩

/-- The penalty is for an effective address in another page than the base (R126). -/
theorem pagePenalty_eq (base ea : Addr) :
    pagePenalty base ea = if ea.toNat / 256 = base.toNat / 256 then 0 else 1 := by
  simp only [pagePenalty, ← BitVec.toNat_inj, toNat_hiByte]

/-- An indexed address is the sum modulo 65536 (R120, R121, R124). -/
theorem toNat_indexed_ea (base : Addr) (index : Byte) (s : State) :
    (indexed base index s).ea.toNat = (base.toNat + index.toNat) % 65536 := by
  rw [indexed, BitVec.toNat_add, BitVec.toNat_setWidth_of_le (by decide)]

/-- The penalty of an indexed address is for a sum in another page than the base (R126). -/
theorem indexed_penalty (base : Addr) (index : Byte) (s : State) :
    (indexed base index s).penalty =
      if (base.toNat + index.toNat) % 65536 / 256 = base.toNat / 256 then 0 else 1 := by
  rw [← toNat_indexed_ea base index s]
  exact pagePenalty_eq base _

/-- Settles O15: both modes are `indexed` with the operand as the base. -/
theorem indexedAbsoluteAddressesAndPenalty : Obligations.IndexedAbsoluteAddressesAndPenalty := by
  rintro s w o index (⟨rfl, rfl⟩ | ⟨rfl, rfl⟩)
  · exact ⟨toNat_indexed_ea w s.x s, indexed_penalty w s.x s, rfl⟩
  · exact ⟨toNat_indexed_ea w s.y s, indexed_penalty w s.y s, rfl⟩

/-! ## Pointers in page 0 -/

/-- A pointer that lies in page 0, its second byte at the address that wraps there, is read as it is; only
the latch changes (R73). -/
theorem State.read16Zp_of_peek {z lo hi : Byte}
    (hlo : s.peek (BitVec.ofNat 16 z.toNat) = some lo)
    (hhi : s.peek (BitVec.ofNat 16 ((z.toNat + 1) % 256)) = some hi) :
    s.read16Zp z = (wordOf lo hi, s.setLatch hi) := by
  have hfirst : BitVec.ofNat 16 z.toNat = zeroPage z := BitVec.ofNat_toNat 16 z
  have hsecond : BitVec.ofNat 16 ((z.toNat + 1) % 256) = zeroPage (z + 1) := by
    rw [zeroPage, ← BitVec.ofNat_toNat, BitVec.toNat_add]
    rfl
  rw [hfirst] at hlo
  rw [hsecond, ← State.peek_setLatch lo] at hhi
  rw [State.read16Zp, State.busRead_of_peek hlo, State.busRead_of_peek hhi]
  rfl

/-- Settles O16: `X` is added before the pointer is read and `Y` after, and the high byte of the pointer is
the page that the penalty of the second compares with. -/
theorem pointerModesReadInPageZero : Obligations.PointerModesReadInPageZero := by
  intro s b1
  constructor
  · intro z lo hi hz hlo hhi
    obtain rfl : z = b1 + s.x := BitVec.eq_of_toNat_eq (hz.trans (BitVec.toNat_add b1 s.x).symm)
    rw [resolve, State.read16Zp_of_peek hlo hhi]
    exact ⟨toNat_wordOf lo hi, rfl, rfl⟩
  · intro lo hi hlo hhi
    have hpage : (wordOf lo hi).toNat / 256 = hi.toNat := by
      rw [← toNat_hiByte, hiByte_wordOf]
    rw [resolve, State.read16Zp_of_peek hlo hhi, toNat_indexed_ea, indexed_penalty, hpage,
      toNat_wordOf]
    exact ⟨rfl, rfl, rfl⟩

end Sys2Proof.Machine
end

section
/-! PROOFS. The step and `Run`: what a step executes, that a halted core stays as it is, and where the loop
of `Run` stops (R110, R111, R133, R134). -/

namespace Sys2Proof.Machine

variable {s t : State} {bound : Nat}

/-! ## The step -/

/-- Settles O46: `step_of_decoded`. -/
theorem stepExecutesWhatItFetches : Obligations.StepExecutesWhatItFetches :=
  fun _ _ _ hvalid hrun hd => step_of_decoded hvalid hrun hd

/-- Settles O49: the halt record is tested before the fetch. -/
theorem haltedCoreDoesNothing : Obligations.HaltedCoreDoesNothing := by
  intro s hvalid hhalted
  obtain ⟨record, hrec⟩ := Option.ne_none_iff_exists'.mp hhalted
  simp only [step, hvalid, hrec]

/-! ## Run -/

/-- Where the loop of `Run` takes no further step: the core is halted or the bound is met (R134). -/
def Stopped (bound : Nat) (s : State) : Prop := s.halted ≠ none ∨ bound ≤ s.cpuCycles

theorem not_stopped_iff : ¬ Stopped bound s ↔ s.halted = none ∧ s.cpuCycles < bound := by
  simp only [Stopped, not_or, not_not, Nat.not_le]

theorem runLoop_of_stopped (h : Stopped bound s) (fuel : Nat) :
    runLoop bound fuel s = .next (s.runResult, s) := by
  cases fuel with
  | zero => rfl
  | succ fuel => rw [runLoop, if_neg (not_stopped_iff.not_right.mp h)]

theorem runLoop_of_step (hrun : s.halted = none) (hbelow : s.cpuCycles < bound)
    (h : step s = .next t) (fuel : Nat) : runLoop bound (fuel + 1) s = runLoop bound fuel t := by
  rw [runLoop, if_pos ⟨hrun, hbelow⟩, h]

/-- The loop stops by itself, in a state it came to by steps, when it has a round for each cycle up to the
bound: a step that does not halt the core takes at least one (R134, R136). -/
theorem runLoop_stops (fuel : Nat) (hvalid : s.cfg.valid = true)
    (hfuel : s.halted ≠ none ∨ bound ≤ s.cpuCycles + fuel) :
    ∃ t, runLoop bound fuel s = .next (t.runResult, t) ∧ RunsTo bound s t ∧ Stopped bound t := by
  induction fuel generalizing s with
  | zero => exact ⟨s, rfl, .refl s, hfuel⟩
  | succ fuel ih =>
    by_cases hstop : Stopped bound s
    · exact ⟨s, runLoop_of_stopped hstop _, .refl s, hstop⟩
    · obtain ⟨hrun, hbelow⟩ := not_stopped_iff.mp hstop
      obtain ⟨u, hu, hcfg, -, hclock⟩ := stepAlwaysAnswersAndClocksAdvance s hvalid
      have hrounds : u.halted ≠ none ∨ bound ≤ u.cpuCycles + fuel := by
        rcases hclock with ⟨-, hmin, -⟩ | ⟨hhalt, -⟩
        · have hbound := hfuel.resolve_left (not_not_intro hrun)
          exact .inr (by omega)
        · exact .inl hhalt
      obtain ⟨t, ht, hruns, hstopped⟩ := ih (hcfg ▸ hvalid) hrounds
      exact ⟨t, (runLoop_of_step hrun hbelow hu fuel).trans ht, .step s u t hrun hbelow hu hruns,
        hstopped⟩

theorem RunsTo.eq_of_stopped (h : RunsTo bound s t) (hstop : Stopped bound s) : t = s := by
  cases h with
  | refl => rfl
  | step _ u _ hrun hbelow => exact absurd hstop (not_stopped_iff.mpr ⟨hrun, hbelow⟩)

/-- The last step starts below the bound and takes at most 8 cycles (R134, R136). -/
theorem RunsTo.cpuCycles_le (h : RunsTo bound s t) (hvalid : s.cfg.valid = true)
    (hle : s.cpuCycles ≤ bound + 7) : t.cpuCycles ≤ bound + 7 := by
  induction h with
  | refl => exact hle
  | step s u t hrun hbelow hu hrest ih =>
    obtain ⟨u', hu', hcfg, -, hclock⟩ := stepAlwaysAnswersAndClocksAdvance s hvalid
    obtain rfl : u = u' := Host.Outcome.next.inj (hu.symm.trans hu')
    exact ih (hcfg ▸ hvalid) (by omega)

/-- Settles O56: the loop has rounds enough to stop by itself, and the case it stops in is the result it
reports. -/
theorem runStopsAtTheBoundOrTheHalt : Obligations.RunStopsAtTheBoundOrTheHalt := by
  intro bound s hvalid
  obtain ⟨t, ht, hruns, hstop⟩ := runLoop_stops (bound := bound) (bound - s.cpuCycles) hvalid
    (.inr (by omega))
  refine ⟨t.runResult, t, ht, hruns, hruns.eq_of_stopped, ?_⟩
  cases hrec : t.halted with
  | none =>
    have hbound : bound ≤ t.cpuCycles := hstop.resolve_left (not_not_intro hrec)
    exact .inl ⟨rfl, by rw [State.runResult, hrec], hbound,
      fun hbelow => hruns.cpuCycles_le hvalid (by omega)⟩
  | some h => exact .inr ⟨h.1, h.2, rfl, by rw [State.runResult, hrec]⟩

end Sys2Proof.Machine
end

section
/-! PROOFS. What an instruction of one class completes with, whatever its mnemonic: a read-class
instruction, a write-class one, an implicit-mode one that works on registers alone. The loads, the stores
and the transfers follow. -/

namespace Sys2Proof.Machine
open Sys2Proof.Claims

variable {s : State} {i : Instr}

/-! ## The next instruction -/

/-- `PC` advanced by the instruction's length is the address of the next one, modulo 65536. -/
theorem pc_add_length (i : Instr) (s : State) :
    s.pc + BitVec.ofNat 16 i.length = nextPc i s := by
  apply BitVec.eq_of_toNat_eq
  simp [nextPc]

/-- The length of an instruction with a memory operand is what its frame advances `PC` by. -/
theorem length_of_mem {m : MemOperand} (h : i.operand = .mem m) :
    i.length = 1 + m.mode.operandBytes := by
  rw [Instr.length, h, Operand.mode]

/-! ## The read class -/

/-- The operand access of a read-class instruction changes no register, and no memory. -/
theorem readOperand_frame {o : Operand} {acc : Access} (h : readOperand o s = some acc) :
    RegsKept s acc.after ∧ acc.after.p = s.p ∧ acc.after.pc = s.pc ∧
    acc.after.cpuCycles = s.cpuCycles ∧ acc.after.halted = s.halted ∧ acc.after.cfg = s.cfg ∧
    MemKept s acc.after := by
  cases o with
  | imm b1 =>
    cases h
    exact ⟨⟨rfl, rfl, rfl, rfl⟩, rfl, rfl, rfl, rfl, rfl, fun _ => rfl⟩
  | mem m =>
    cases h
    simp [RegsKept, MemKept]
  | _ => cases h

/-- A read-class instruction makes its operand access, then its body works on the byte read in the state
the access left, with `PC` moved on (R111, R114, R125). -/
theorem exec_readBody {f : Byte → State → State} (hf : readBody i.mnemonic = some f) (s : State) :
    ∃ acc, readOperand i.operand s = some acc ∧
      exec i s =
        .next ((f acc.value (acc.after.advance i.length)).tick (i.base + acc.penalty)) := by
  rcases exec_read hf with ⟨b1, ho, he, hbase⟩ | ⟨m, ho, base, he, rfl⟩
  · have hlen : i.length = 2 := by rw [Instr.length, ho]; rfl
    exact ⟨⟨b1, 0, s⟩, by rw [ho, readOperand], by rw [he, hbase, hlen]; rfl⟩
  · exact ⟨_, by rw [ho, readOperand], by rw [he, runRead_eq, length_of_mem ho]⟩

/-- A read-class instruction completes with what its body makes of the operand byte, in a state with the
registers and flags of `s`. -/
theorem readsThen_of_readBody {f : Byte → State → State} {post : Byte → State → Prop}
    (hf : readBody i.mnemonic = some f)
    (hpost : ∀ v u cost, RegsKept s u → u.p = s.p → post v ((f v u).tick cost)) :
    ReadsThen i s post := by
  obtain ⟨acc, ho, he⟩ := exec_readBody hf s
  obtain ⟨hregs, hp, hpc, hcycles, hhalt, hcfg, hmem⟩ := readOperand_frame ho
  refine ⟨acc, _, ho, ⟨he, ?_⟩, fun a => ?_, hpost _ _ _ hregs hp⟩
  · obtain ⟨a, x, y, p, hbody⟩ := readBody_frame hf acc.value (acc.after.advance i.length)
    rw [hbody, ← pc_add_length, ← hpc, ← hcycles]
    exact ⟨rfl, rfl, rfl, rfl, rfl, hhalt, hcfg⟩
  · rw [((readBody_sameBus hf _ _).of_advance.tick _).memKept a, hmem a]

/-! ## The write class -/

/-- A write-class instruction stores its register at its effective address, which it does not read
(R125). -/
theorem storesRegister_of_storeSource {reg : State → Byte} (h : storeSource i.mnemonic = some reg) :
    StoresRegister i s (reg s) := by
  obtain ⟨m, ho, base, he, rfl⟩ := exec_store h
  refine ⟨m, _, ho, ⟨(he s).trans (runStore_eq ..), ?_⟩, fun a => ?_, ?_, ?_⟩
  · simp [← pc_add_length, length_of_mem ho]
  · simp [State.peek_busWrite]
  · simp [RegsKept]
  · simp

/-! ## Implicit mode on registers -/

/-- An implicit-mode instruction whose body works on registers alone makes no bus access (R112). -/
theorem completesQuietly_of_impliedBody {base : Nat} {f : State → State} {post : State → Prop}
    (hf : impliedBody i.mnemonic = some (base, f))
    (hregs : ∀ u, ∃ a x y sp p, f u = { u with a := a, x := x, y := y, sp := sp, p := p })
    (hpost : post ((f (s.advance 1)).tick base)) : CompletesQuietly i s post := by
  obtain ⟨ho, he, rfl⟩ := exec_implied hf
  have hlen : i.length = 1 := by rw [Instr.length, ho]; rfl
  obtain ⟨a, x, y, sp, p, hbody⟩ := hregs (s.advance 1)
  refine ⟨_, ⟨he s, ?_⟩, ?_, hpost⟩
  · rw [hbody, ← pc_add_length, hlen]
    exact ⟨rfl, rfl, rfl, rfl, rfl, rfl, rfl⟩
  · rw [hbody]
    exact State.peek_congr rfl rfl rfl

/-! ## `Z` and `N` -/

/-- `SetNZ` leaves `Z` and `N` as R11 says. -/
theorem nz_setNZ (p v : Byte) : NZ (setNZ p v) v := by
  simp [NZ, msb_eq_bit7, beq_eq_decide]

/-- `SetNZ` writes no other flag. -/
theorem flagsKeptBut_of_setNZ {t : State} {v : Byte} (h : t.p = setNZ s.p v) :
    FlagsKeptBut [.z, .n] s t := by
  intro g hg
  simp only [List.mem_cons, List.not_mem_nil, or_false, not_or] at hg
  rw [h, flag_setNZ, if_neg hg.2, if_neg hg.1]

end Sys2Proof.Machine
end

section
/-! PROOFS. Loads, stores and transfers: each mnemonic with the body of its class (R141 to R152). -/

namespace Sys2Proof.Machine
open Sys2Proof.Claims

/-! ## Loads and stores -/

/-- Settles O17: each load is its body of the read class, which passes the operand byte on with
`SetNZ`. -/
theorem loadsTakeTheOperandAndSetNZ : Obligations.LoadsTakeTheOperandAndSetNZ := by
  refine ⟨rfl, rfl, rfl, fun i s => ⟨fun h => ?_, fun h => ?_, fun h => ?_⟩⟩
  · refine readsThen_of_readBody (f := loadA) (by rw [h]; rfl) fun v u cost hregs hp => ?_
    obtain ⟨-, hx, hy, hsp⟩ := hregs
    exact ⟨rfl, hx, hy, hsp, nz_setNZ u.p v, flagsKeptBut_of_setNZ (congrArg (setNZ · v) hp)⟩
  · refine readsThen_of_readBody (f := loadX) (by rw [h]; rfl) fun v u cost hregs hp => ?_
    obtain ⟨ha, -, hy, hsp⟩ := hregs
    exact ⟨ha, rfl, hy, hsp, nz_setNZ u.p v, flagsKeptBut_of_setNZ (congrArg (setNZ · v) hp)⟩
  · refine readsThen_of_readBody (f := loadY) (by rw [h]; rfl) fun v u cost hregs hp => ?_
    obtain ⟨ha, hx, -, hsp⟩ := hregs
    exact ⟨ha, hx, rfl, hsp, nz_setNZ u.p v, flagsKeptBut_of_setNZ (congrArg (setNZ · v) hp)⟩

/-- Settles O18: each store is the write class with its register. -/
theorem storesWriteTheRegisterAndNoFlag : Obligations.StoresWriteTheRegisterAndNoFlag :=
  ⟨rfl, rfl, rfl, fun _ _ =>
    ⟨fun h => storesRegister_of_storeSource (congrArg storeSource h),
      fun h => storesRegister_of_storeSource (congrArg storeSource h),
      fun h => storesRegister_of_storeSource (congrArg storeSource h)⟩⟩

/-! ## Transfers -/

/-- Settles O19: each transfer is its implicit-mode body; five pass the byte on with `SetNZ`, TXS
writes `SP` alone. -/
theorem transfersCopyARegister : Obligations.TransfersCopyARegister := by
  refine ⟨rfl, rfl, rfl, rfl, rfl, rfl, fun s => ⟨?_, ?_, ?_, ?_, ?_, ?_⟩⟩
  case refine_6 =>
    exact completesQuietly_of_impliedBody rfl (fun _ => ⟨_, _, _, _, _, rfl⟩)
      ⟨rfl, rfl, rfl, rfl, rfl⟩
  all_goals
    exact completesQuietly_of_impliedBody rfl (fun _ => ⟨_, _, _, _, _, rfl⟩)
      ⟨rfl, rfl, rfl, rfl, nz_setNZ s.p _, flagsKeptBut_of_setNZ rfl⟩

end Sys2Proof.Machine
end

section
/-! PROOFS. Arithmetic, logic, compares and the bit test: what each computation on bytes and `P` comes
to, then each mnemonic with the body of its class (R159 to R169). -/

namespace Sys2Proof.Machine
open Sys2Proof.Claims

variable {s t : State} {i : Instr}

/-! ## ADC and SBC as numbers -/

theorem toNat_adc (a m p : Byte) :
    (adc a m p).1.toNat = (a.toNat + m.toNat + (flag p .c).toNat) % 256 := by
  rw [adc_fst, BitVec.toNat_ofNat]

theorem flag_adc_carry (a m p : Byte) :
    flag (adc a m p).2 .c = decide (255 < a.toNat + m.toNat + (flag p .c).toNat) := by
  simp [flag_adc]

theorem flag_adc_overflow (a m p : Byte) :
    flag (adc a m p).2 .v = signedOverflow (a.toInt + m.toInt + (flag p .c).toNat) :=
  (flag_adc a m p .v).trans (adc_overflow a m (flag p .c))

theorem nz_adc (a m p : Byte) : NZ (adc a m p).2 (adc a m p).1 :=
  nz_setNZ _ _

theorem flagsKeptBut_of_adc {a m : Byte} (h : t.p = (adc a m s.p).2) :
    FlagsKeptBut [.c, .z, .v, .n] s t := by
  intro g hg
  simp only [List.mem_cons, List.not_mem_nil, or_false, not_or] at hg
  obtain ⟨hc, hz, hv, hn⟩ := hg
  rw [h, flag_adc, if_neg hn, if_neg hz, if_neg hv, if_neg hc]

/-- Adding the complement `255 - M` subtracts `M` and the borrow, modulo 256 (R162). -/
theorem toNat_sbc (a m p : Byte) :
    ((sbc a m p).1.toNat : Int) =
      ((a.toNat : Int) - m.toNat - (1 - (flag p .c).toNat)) % 256 := by
  have hm := m.isLt
  rw [sbc, toNat_adc, toNat_complement]
  omega

/-- The sum with the complement exceeds 255 exactly when the difference is not negative (R162). -/
theorem flag_sbc_carry (a m p : Byte) :
    flag (sbc a m p).2 .c =
      decide (0 ≤ (a.toNat : Int) - m.toNat - (1 - (flag p .c).toNat)) := by
  have hm := m.isLt
  rw [sbc, flag_adc_carry, toNat_complement, decide_eq_decide]
  omega

/-- With sign the complement is `-1 - M`, so that the exact sum is the exact difference (R162). -/
theorem flag_sbc_overflow (a m p : Byte) :
    flag (sbc a m p).2 .v = signedOverflow (a.toInt - m.toInt - (1 - (flag p .c).toNat)) := by
  rw [sbc, flag_adc_overflow, toInt_complement]
  congr 1
  omega

/-! ## Operations on `A` -/

theorem readsThen_imp {post post' : Byte → State → Prop} (h : ReadsThen i s post)
    (himp : ∀ m t, post m t → post' m t) : ReadsThen i s post' := by
  obtain ⟨acc, t, ho, hdone, hmem, hpost⟩ := h
  exact ⟨acc, t, ho, hdone, hmem, himp _ _ hpost⟩

/-- A read-class instruction whose body puts `op` of `A`, the operand byte and `P` into `A` and `P`
(R161 to R165). -/
theorem readsThen_of_withA {op : Byte → Byte → Byte → Byte × Byte}
    (hf : readBody i.mnemonic = some fun m u => u.withA (op u.a m u.p)) :
    ReadsThen i s fun m t => t.a = (op s.a m s.p).1 ∧ t.p = (op s.a m s.p).2 ∧
      t.x = s.x ∧ t.y = s.y ∧ t.sp = s.sp := by
  refine readsThen_of_readBody hf fun m u cost hregs hp => ?_
  obtain ⟨ha, hx, hy, hsp⟩ := hregs
  rw [← ha, ← hp]
  exact ⟨rfl, rfl, hx, hy, hsp⟩

/-- One of AND, ORA, EOR, whose body passes `op` of `A` and the operand byte on to `A` with `SetNZ`. -/
theorem readsThen_of_passNZ {op : Byte → Byte → Byte}
    (hf : readBody i.mnemonic = some fun m u => u.withA (passNZ (op u.a m) u.p)) :
    ReadsThen i s fun m t => t.a = op s.a m ∧ NZ t.p t.a ∧ FlagsKeptBut [.z, .n] s t ∧
      t.x = s.x ∧ t.y = s.y ∧ t.sp = s.sp := by
  refine readsThen_imp (readsThen_of_withA (op := fun a m p => passNZ (op a m) p) hf)
    fun m t ⟨ha, hp, hregs⟩ => ⟨ha, ?_, flagsKeptBut_of_setNZ hp, hregs⟩
  rw [ha, hp]
  exact nz_setNZ s.p _

/-! ## Compares -/

/-- Bit 7 of a difference modulo 256. -/
theorem msb_sub (r m : Byte) :
    (r - m).msb = decide (128 ≤ (r.toNat + 256 - m.toNat) % 256) := by
  have hm := m.isLt
  rw [BitVec.msb_eq_decide, BitVec.toNat_sub, decide_eq_decide]
  omega

/-- A state with the registers of `s` and `P` from `compareFlags` is what a comparison leaves. -/
theorem compared_of_compareFlags {r m : Byte} (hregs : RegsKept s t)
    (hp : t.p = compareFlags r m s.p) : Compared r m s t := by
  refine ⟨?_, ?_, ?_, fun g hg => ?_, hregs⟩
  · simp [hp, flag_compareFlags]
  · simp [hp, flag_compareFlags, beq_eq_decide]
  · simp [hp, flag_compareFlags, msb_sub]
  · simp only [List.mem_cons, List.not_mem_nil, or_false, not_or] at hg
    obtain ⟨hc, hz, hn⟩ := hg
    rw [hp, flag_compareFlags, if_neg hn, if_neg hz, if_neg hc]

/-- A read-class instruction that compares a register with its operand byte. -/
theorem readsThen_of_compareFlags {reg : State → Byte}
    (hf : readBody i.mnemonic = some fun m u => u.setP (compareFlags (reg u) m u.p))
    (hreg : ∀ u, RegsKept s u → reg u = reg s) :
    ReadsThen i s fun m t => Compared (reg s) m s t :=
  readsThen_of_readBody hf fun m u _ hregs hp =>
    compared_of_compareFlags hregs (congrArg₂ (compareFlags · m ·) (hreg u hregs) hp)

/-! ## The bit test -/

theorem flag_bitTest_z (a m p : Byte) : flag (bitTest a m p) .z = decide (a &&& m = 0) :=
  (flag_bitTest a m p .z).trans (beq_eq_decide ..)

theorem flagsKeptBut_of_bitTest {a m : Byte} (h : t.p = bitTest a m s.p) :
    FlagsKeptBut [.z, .v, .n] s t := by
  intro g hg
  simp only [List.mem_cons, List.not_mem_nil, or_false, not_or] at hg
  obtain ⟨hz, hv, hn⟩ := hg
  rw [h, flag_bitTest, if_neg hv, if_neg hn, if_neg hz]

/-! ## The statements -/

/-- Settles O20: ADC puts `adc` of `A`, its operand and `P` into `A` and `P`. -/
theorem addWithCarry : Obligations.AddWithCarry := by
  refine ⟨rfl, fun i s h => ?_⟩
  refine readsThen_imp (readsThen_of_withA (op := adc) (h ▸ rfl)) fun m t ⟨ha, hp, hregs⟩ => ?_
  have hkept := flagsKeptBut_of_adc hp
  rw [ha, hp]
  exact ⟨toNat_adc .., flag_adc_carry .., flag_adc_overflow .., nz_adc .., hkept, hregs⟩

/-- Settles O21: SBC does the same with `sbc`, which is `adc` of the complement. -/
theorem subtractWithBorrow : Obligations.SubtractWithBorrow := by
  refine ⟨rfl, fun i s h => ?_⟩
  refine readsThen_imp (readsThen_of_withA (op := sbc) (h ▸ rfl)) fun m t ⟨ha, hp, hregs⟩ => ?_
  have hkept := flagsKeptBut_of_adc hp
  rw [ha, hp]
  exact ⟨toNat_sbc .., flag_sbc_carry .., flag_sbc_overflow .., nz_adc .., hkept, hregs⟩

/-- Settles O22: the three operations pass their result on with `SetNZ`, and each works bit by bit. -/
theorem bitwiseLogic : Obligations.BitwiseLogic := by
  refine ⟨rfl, rfl, rfl, fun i s h => ?_⟩
  simp only [List.mem_cons, List.not_mem_nil, or_false] at h
  rcases h with h | h | h
  · exact readsThen_imp (readsThen_of_passNZ (op := (· &&& ·)) (h ▸ rfl))
      fun m t ⟨ha, hrest⟩ => ⟨fun k _ => by simp [h, ha], hrest⟩
  · exact readsThen_imp (readsThen_of_passNZ (op := (· ||| ·)) (h ▸ rfl))
      fun m t ⟨ha, hrest⟩ => ⟨fun k _ => by simp [h, ha], hrest⟩
  · exact readsThen_imp (readsThen_of_passNZ (op := (· ^^^ ·)) (h ▸ rfl))
      fun m t ⟨ha, hrest⟩ => ⟨fun k _ => by simp [h, ha], hrest⟩

/-- Settles O23: the three compares are one body with `A`, `X`, `Y` as its register. -/
theorem comparesSetFlagsOnly : Obligations.ComparesSetFlagsOnly := by
  refine ⟨rfl, rfl, rfl, fun i s => ⟨fun h => ?_, fun h => ?_, fun h => ?_⟩⟩
  · exact readsThen_of_compareFlags (reg := State.a) (h ▸ rfl) fun _ ⟨ha, _, _, _⟩ => ha
  · exact readsThen_of_compareFlags (reg := State.x) (h ▸ rfl) fun _ ⟨_, hx, _, _⟩ => hx
  · exact readsThen_of_compareFlags (reg := State.y) (h ▸ rfl) fun _ ⟨_, _, hy, _⟩ => hy

/-- Settles O24: BIT writes `bitTest` of `A`, its operand and `P` into `P` and keeps the registers. -/
theorem bitTestFlags : Obligations.BitTestFlags := by
  refine ⟨rfl, fun i s h => ?_⟩
  refine readsThen_of_readBody (f := testBits) (h ▸ rfl) fun m u cost hregs hp => ?_
  have ht : ((testBits m u).tick cost).p = bitTest s.a m s.p :=
    congrArg₂ (bitTest · m ·) hregs.1 hp
  have hkept := flagsKeptBut_of_bitTest ht
  rw [ht]
  exact ⟨flag_bitTest_z .., flag_bitTest .., flag_bitTest .., hkept, hregs⟩

end Sys2Proof.Machine
end

section
/-! PROOFS. Increments, decrements, shifts and rotates: what a modify-class instruction completes with on
memory and on the accumulator, what each computation on a byte and `P` comes to, then each mnemonic with
its body (R170 to R180). -/

namespace Sys2Proof.Machine
open Sys2Proof.Claims

variable {s t : State} {i : Instr}

/-! ## The modify class -/

/-- A modify-class instruction on memory writes back what its body makes of the byte read and of `P`, and
takes its new `P` from there (R170). -/
theorem modifiesThen_of_modifyBody {f : Byte → Byte → Byte × Byte} {post : Byte → Byte → State → Prop}
    (hf : modifyBody i.mnemonic = some f) (hmem : i.operand ≠ .acc)
    (hpost : ∀ v t, t.p = (f v s.p).2 → post v (f v s.p).1 t) : ModifiesThen i s post := by
  rcases exec_modify hf with ⟨hacc, -⟩ | ⟨m, ho, base, he, rfl⟩
  · exact absurd hacc hmem
  · refine ⟨m, _, _, ho, ⟨(he s).trans (runModify_eq ..), ?_⟩, fun a => ?_, ?_, hpost _ _ rfl⟩
    · simp [← pc_add_length, length_of_mem ho]
    · simp [State.peek_busWrite]
    · simp [RegsKept]

/-- In accumulator mode the body works on `A` and `P`, and there is no bus access (R113). -/
theorem completesQuietly_of_modifyBody {f : Byte → Byte → Byte × Byte} {post : State → Prop}
    (hf : modifyBody i.mnemonic = some f) (hacc : i.operand = .acc)
    (hpost : ∀ t, t.a = (f s.a s.p).1 → t.p = (f s.a s.p).2 → t.x = s.x → t.y = s.y → t.sp = s.sp →
      post t) : CompletesQuietly i s post := by
  rcases exec_modify hf with ⟨-, he, hbase⟩ | ⟨m, ho, -⟩
  · have hlen : i.length = 1 := by rw [Instr.length, hacc]; rfl
    refine ⟨_, ⟨he s, ?_⟩, State.peek_congr rfl rfl rfl, hpost _ rfl rfl rfl rfl rfl⟩
    rw [← pc_add_length, hlen, hbase]
    exact ⟨rfl, rfl, rfl, rfl, rfl, rfl, rfl⟩
  · cases hacc.symm.trans ho

/-! ## Increments and decrements -/

theorem toNat_incByte (v p : Byte) : (incByte v p).1.toNat = (v.toNat + 1) % 256 :=
  BitVec.toNat_add v 1

theorem toNat_decByte (v p : Byte) : (decByte v p).1.toNat = (v.toNat + 255) % 256 := by
  rw [decByte, passNZ, BitVec.toNat_sub, Nat.add_comm]
  rfl

/-- Outside the shifts and rotates no instruction works on the accumulator (R113). -/
theorem operand_ne_acc_of_not_mem_shifts (h : i.mnemonic ∉ shifts) : i.operand ≠ .acc :=
  fun hacc => h (mnemonic_mem_shifts_of_acc hacc)

/-- Settles O25: `incByte` and `decByte` pass the byte they make on with `SetNZ`. -/
theorem incrementDecrementMemory : Obligations.IncrementDecrementMemory := by
  refine ⟨rfl, rfl, fun i s => ⟨fun h => ?_, fun h => ?_⟩⟩
  · exact modifiesThen_of_modifyBody (f := incByte) (h ▸ rfl)
      (operand_ne_acc_of_not_mem_shifts (h ▸ by decide)) fun v t hp =>
        ⟨toNat_incByte v s.p, hp ▸ nz_setNZ s.p _, flagsKeptBut_of_setNZ hp⟩
  · exact modifiesThen_of_modifyBody (f := decByte) (h ▸ rfl)
      (operand_ne_acc_of_not_mem_shifts (h ▸ by decide)) fun v t hp =>
        ⟨toNat_decByte v s.p, hp ▸ nz_setNZ s.p _, flagsKeptBut_of_setNZ hp⟩

/-- Settles O26: the same two computations, on `X` and on `Y`, as implicit-mode bodies. -/
theorem incrementDecrementRegisters : Obligations.IncrementDecrementRegisters := by
  refine ⟨rfl, rfl, rfl, rfl, fun s => ⟨?_, ?_, ?_, ?_⟩⟩
  all_goals
    refine completesQuietly_of_impliedBody rfl (fun _ => ⟨_, _, _, _, _, rfl⟩)
      ⟨?_, nz_setNZ s.p _, flagsKeptBut_of_setNZ rfl, rfl, rfl, rfl⟩
  · exact toNat_incByte s.x s.p
  · exact toNat_incByte s.y s.p
  · exact toNat_decByte s.x s.p
  · exact toNat_decByte s.y s.p

/-! ## Shifts and rotates -/

/-- A left shift drops bit 7 (R177, R179). -/
theorem toNat_shiftLeft_one (v : Byte) : (v <<< 1).toNat = 2 * v.toNat % 256 := by
  rw [BitVec.toNat_shiftLeft, Nat.shiftLeft_eq, Nat.mul_comm]

/-- A right shift drops bit 0 (R178, R180). -/
theorem toNat_shiftRight_one (v : Byte) : (v >>> 1).toNat = v.toNat / 2 := by
  rw [BitVec.toNat_ushiftRight, Nat.shiftRight_eq_div_pow]

/-- The carry rotated in at the right fills the bit that the left shift leaves 0 (R179). -/
theorem toNat_rolByte (v p : Byte) :
    (rolByte v p).1.toNat = (2 * v.toNat + (flag p .c).toNat) % 256 := by
  have hcarry := (flag p .c).toNat_le
  have hbit : (if flag p .c then 0x01 else 0x00 : Byte).toNat = (flag p .c).toNat := by
    cases flag p .c <;> rfl
  have heven : 2 * v.toNat % 256 = 2 ^ 1 * (v.toNat % 128) := by omega
  rw [rolByte, passNZ, BitVec.toNat_or, toNat_shiftLeft_one, hbit, heven,
    ← Nat.two_pow_add_eq_or_of_lt (by omega)]
  omega

/-- The carry rotated in at the left fills the bit that the right shift leaves 0 (R180). -/
theorem toNat_rorByte (v p : Byte) :
    (rorByte v p).1.toNat = v.toNat / 2 + 128 * (flag p .c).toNat := by
  have hv := v.isLt
  have hbit : (if flag p .c then 0x80 else 0x00 : Byte).toNat = 2 ^ 7 * (flag p .c).toNat := by
    cases flag p .c <;> rfl
  rw [rorByte, passNZ, BitVec.toNat_or, toNat_shiftRight_one, hbit, Nat.or_comm,
    ← Nat.two_pow_add_eq_or_of_lt (by omega), Nat.add_comm]

/-- The body of a shift or rotate puts a carry `c` into `P` and passes a result `r` on with `SetNZ`, the
two of them as R177 to R180 say. -/
theorem modifyBody_of_mem_shifts {m : Mnemonic} (hm : m ∈ shifts) :
    ∃ f, modifyBody m = some f ∧ ∀ v p, ∃ r c, f v p = passNZ r (setFlag p .c c) ∧
      ShiftResult m v (flag p .c) r c := by
  simp only [shifts, List.mem_cons, List.not_mem_nil, or_false] at hm
  rcases hm with rfl | rfl | rfl | rfl
  · exact ⟨aslByte, rfl, fun v p =>
      ⟨_, _, rfl, fun _ => ⟨toNat_shiftLeft_one v, rfl⟩, nofun, nofun, nofun⟩⟩
  · exact ⟨lsrByte, rfl, fun v p =>
      ⟨_, _, rfl, nofun, fun _ => ⟨toNat_shiftRight_one v, rfl⟩, nofun, nofun⟩⟩
  · exact ⟨rolByte, rfl, fun v p =>
      ⟨_, _, rfl, nofun, nofun, fun _ => ⟨toNat_rolByte v p, rfl⟩, nofun⟩⟩
  · exact ⟨rorByte, rfl, fun v p =>
      ⟨_, _, rfl, nofun, nofun, nofun, fun _ => ⟨toNat_rorByte v p, rfl⟩⟩⟩

/-- A carry and then `SetNZ` leave `C`, `Z` and `N` as written and keep the other flags. -/
theorem flags_of_carry_setNZ {r : Byte} {c : Bool} (h : t.p = setNZ (setFlag s.p .c c) r) :
    flag t.p .c = c ∧ NZ t.p r ∧ FlagsKeptBut [.c, .z, .n] s t := by
  refine ⟨by simp [h], h ▸ nz_setNZ _ r, fun g hg => ?_⟩
  simp only [List.mem_cons, List.not_mem_nil, or_false, not_or] at hg
  obtain ⟨hc, hz, hn⟩ := hg
  rw [h, flag_setNZ, if_neg hn, if_neg hz, flag_setFlag, if_neg hc]

/-- Settles O27: both forms run the body of `modifyBody_of_mem_shifts`, on `A` or on the byte at the
effective address. -/
theorem shiftsAndRotates : Obligations.ShiftsAndRotates := by
  refine ⟨rfl, rfl, rfl, rfl, fun i s hm => ?_⟩
  obtain ⟨f, hf, hbody⟩ := modifyBody_of_mem_shifts hm
  refine ⟨fun hacc => completesQuietly_of_modifyBody hf hacc fun t ha hp hx hy hsp => ?_,
    fun hmem => modifiesThen_of_modifyBody hf hmem fun v t hp => ?_⟩
  · obtain ⟨r, c, hrc, hresult⟩ := hbody s.a s.p
    rw [hrc] at ha hp
    obtain ⟨hc, hnz, hkept⟩ := flags_of_carry_setNZ hp
    rw [ha, hc]
    exact ⟨hresult, hnz, hkept, hx, hy, hsp⟩
  · obtain ⟨r, c, hrc, hresult⟩ := hbody v s.p
    rw [hrc] at hp ⊢
    obtain ⟨hc, hnz, hkept⟩ := flags_of_carry_setNZ hp
    rw [hc]
    exact ⟨hresult, hnz, hkept⟩

end Sys2Proof.Machine
end

section
/-! PROOFS. Jumps, subroutine call and return: where an indirect jump goes, what a call leaves on the
stack, and that a return goes by the two bytes it finds there (R194 to R196). -/

namespace Sys2Proof.Machine
open Sys2Proof.Claims

variable {s : State}

/-! ## Jumps -/

/-- The pointer of an indirect jump is read beside `PC`. -/
theorem State.read16Ind_advance (n : Nat) (a : Addr) :
    (s.advance n).read16Ind a = ((s.read16Ind a).1, (s.read16Ind a).2.advance n) := by
  simp only [State.read16Ind, State.busRead_advance, State.advance_cfg]

/-- Settles O29: the absolute mode only moves `PC`; the indirect one makes the two reads of
`State.read16Ind`, whose second address `indirectHigh_eq` gives for both values of the parameter. -/
theorem jumpsAbsoluteAndIndirect : Obligations.JumpsAbsoluteAndIndirect := by
  refine ⟨rfl, fun w s => ⟨completes_of_setPc_tick rfl, ?_⟩⟩
  simp only [← indirectHigh_eq, ← wordOf_eq_ofNat]
  have he : exec (.jmpInd w) s =
      .next ((((s.read16Ind w).2.advance 3).setPc (s.read16Ind w).1).tick 5) := by
    rw [show exec (.jmpInd w) s = execJmpInd w s from rfl, execJmpInd, State.read16Ind_advance]
  refine ⟨_, ⟨he, ?_⟩, fun a => ?_, ?_, ?_⟩ <;> simp [State.read16Ind, RegsKept]

/-! ## The call -/

/-- The stack pointer moves by the two bytes of the word (R27). -/
theorem State.pushWord_sp (v : Addr) : (s.pushWord v).sp = s.sp - 2 := by
  obtain ⟨-, -, -, hsp, -⟩ := s.pushWord_fields v
  rw [hsp]
  bv_omega

/-- The two cells of a pushed word differ, so that the second push leaves the high byte in place (R27,
R69). -/
theorem State.peek_pushWord_stackAddr (v : Addr) :
    (s.pushWord v).peek (stackAddr s.sp) = some (hiByte v) ∧
    (s.pushWord v).peek (stackAddr (s.sp - 1)) = some (loByte v) := by
  have hne : s.sp ≠ s.sp - 1 := by bv_omega
  rw [State.peek_pushWord, State.peek_pushWord, if_neg (stackAddr_translate_inj.not.2 hne), if_pos rfl,
    if_pos rfl]
  exact ⟨rfl, rfl⟩

/-- Settles O30: JSR is `State.pushWord` of the address of its last byte, between updates of `PC` and
the clock. -/
theorem jumpToSubroutinePushesReturnAddress : Obligations.JumpToSubroutinePushesReturnAddress := by
  refine ⟨rfl, fun w s => ?_⟩
  obtain ⟨ha, hx, hy, -, hp, -, hlatch, hcpu, hcycles, hppu, hhalt, hcfg⟩ :=
    (s.advance 3).pushWord_fields (s.pc + 2)
  obtain ⟨hhigh, hlow⟩ := (s.advance 3).peek_pushWord_stackAddr (s.pc + 2)
  refine ⟨_, ⟨rfl, rfl, congrArg (· + 6) hcpu, hlatch, hppu, hcycles, hhalt, hcfg⟩,
    State.pushWord_sp _, ha, hx, hy, hp, ?_, ?_, fun a hnotHigh hnotLow => ?_⟩
  · simpa using hhigh
  · simpa using hlow
  · rw [State.peek_tick, State.peek_setPc, State.peek_pushWord]
    exact (if_neg hnotLow).trans ((if_neg hnotHigh).trans (State.peek_advance ..))

/-! ## The return -/

/-- The two bytes above the stack pointer are pulled as the word they make (R27, R196). -/
theorem State.pullWord_of_peek {lo hi : Byte} (hlo : s.peek (stackAddr (s.sp + 1)) = some lo)
    (hhi : s.peek (stackAddr (s.sp + 2)) = some hi) :
    s.pullWord = (wordOf lo hi, (s.setSp (s.sp + 2)).setLatch hi) := by
  have hsp : s.sp + 1 + 1 = s.sp + 2 := BitVec.add_assoc s.sp 1 1
  rw [State.peek_stackAddr, Option.some.injEq] at hlo hhi
  rw [State.pullWord_eq, hsp, hlo, hhi]

/-- RTS goes to the address after the one it finds on the stack; beside `PC`, `SP` and the clock only
the latch changes (R196). -/
theorem exec_rts_of_peek {lo hi : Byte} (hlo : s.peek (stackAddr (s.sp + 1)) = some lo)
    (hhi : s.peek (stackAddr (s.sp + 2)) = some hi) :
    exec .rts s =
      .next (((((s.advance 1).setSp (s.sp + 2)).setLatch hi).setPc (wordOf lo hi + 1)).tick 6) := by
  have hpull := State.pullWord_of_peek (s := s.advance 1) ((State.peek_advance ..).trans hlo)
    ((State.peek_advance ..).trans hhi)
  obtain ⟨-, he, -⟩ := exec_implied (i := .rts) rfl
  rw [he, hpull, State.advance_sp]

/-- Settles O31: the stack page is work RAM, so that both bytes are there whatever `SP` is. -/
theorem returnFromSubroutine : Obligations.ReturnFromSubroutine := by
  refine ⟨rfl, fun s => ?_⟩
  have hlo := s.peek_stackAddr (s.sp + 1)
  have hhi := s.peek_stackAddr (s.sp + 2)
  refine ⟨_, _, _, hlo, hhi, ⟨exec_rts_of_peek hlo hhi, ?_, rfl, rfl, rfl, rfl, rfl, rfl⟩,
    rfl, rfl, rfl, rfl, rfl, fun a => by simp⟩
  rw [BitVec.ofNat_add, ← wordOf_eq_ofNat]
  rfl

/-- Settles O32: the two bytes in place make the address the call pushed, that of its last byte, and RTS
adds 1 to it. -/
theorem subroutineReturnsAfterTheCall : Obligations.SubroutineReturnsAfterTheCall := by
  intro w s t u hcall hsp hlo hhi
  obtain ⟨t', ⟨he, -⟩, htsp, -, -, -, -, hhigh, hlow, -⟩ :=
    jumpToSubroutinePushesReturnAddress.2 w s
  obtain rfl : t' = t := Host.Outcome.next.inj (he.symm.trans hcall)
  have hsp1 : s.sp - 1 = t'.sp + 1 := by bv_omega
  have hsp2 : s.sp = t'.sp + 2 := by bv_omega
  rw [hsp1, ← hlo, ← hsp] at hlow
  rw [hsp2, ← hhi, ← hsp] at hhigh
  refine ⟨_, exec_rts_of_peek hlow hhigh, ?_, ?_⟩
  · rw [wordOf_loByte_hiByte]
    exact BitVec.add_assoc s.pc 2 1
  · rw [hsp2, ← hsp]
    rfl

end Sys2Proof.Machine
end

section
/-! PROOFS. The stack, flag and system instructions: what the body of each does in implicit mode, with
the bytes pulled and the vector named by what is stored there (R201 to R214, R226, R227). -/

namespace Sys2Proof.Machine
open Sys2Proof.Claims

variable {s : State} {i : Instr}

/-! ## Implicit mode -/

/-- An implicit-mode instruction is one byte long (R112). -/
theorem nextPc_of_impliedBody {base : Nat} {f : State → State}
    (hf : impliedBody i.mnemonic = some (base, f)) : nextPc i s = s.pc + 1 := by
  obtain ⟨ho, -, -⟩ := exec_implied hf
  rw [← pc_add_length, Instr.length, ho]
  rfl

/-- Settles O39: NOP's body is the identity. -/
theorem nopOnlyAdvances : Obligations.NopOnlyAdvances :=
  ⟨rfl, fun _ => rfl⟩

/-! ## Flag instructions -/

/-- Writing one flag keeps the others. -/
theorem flagsKeptBut_of_setFlag {t : State} {f : Flag} {b : Bool} (h : t.p = setFlag s.p f b) :
    FlagsKeptBut [f] s t := by
  intro g hg
  rw [h, flag_setFlag, if_neg (mt List.mem_singleton.2 hg)]

/-- The body of a listed flag instruction writes its flag (R205 to R211). -/
theorem impliedBody_of_mem_flagWrites : ∀ e ∈ flagWrites,
    impliedBody e.1.mnemonic = some (2, writeFlag e.2.1 e.2.2) := by
  simp only [flagWrites, List.forall_mem_cons]
  exact ⟨rfl, rfl, rfl, rfl, rfl, rfl, rfl, nofun⟩

/-- Settles O35: each of the seven is `writeFlag` in implicit mode. -/
theorem flagInstructionsWriteOneBit : Obligations.FlagInstructionsWriteOneBit := by
  refine ⟨rfl, rfl, rfl, rfl, rfl, rfl, rfl, fun e he s => ?_⟩
  exact completesQuietly_of_impliedBody (impliedBody_of_mem_flagWrites e he)
    (fun _ => ⟨_, _, _, _, _, rfl⟩)
    ⟨(flag_setFlag ..).trans (if_pos rfl), flagsKeptBut_of_setFlag rfl, rfl, rfl, rfl, rfl⟩

/-! ## Pushes -/

/-- An implicit-mode instruction whose body pushes `v` stores it at the stack pointer and moves the
pointer down (R27). -/
theorem completes_of_push {base : Nat} {f : State → State} {v : Byte}
    (hf : impliedBody i.mnemonic = some (base, f))
    (hpush : f (s.advance 1) = (s.advance 1).push v) :
    ∃ t, Completes i s { s with latch := v } t base (nextPc i s) ∧
      StoredAt s t (stackAddr s.sp) v ∧ t.sp = s.sp - 1 ∧ t.a = s.a ∧ t.x = s.x ∧ t.y = s.y ∧
      t.p = s.p := by
  obtain ⟨-, he, -⟩ := exec_implied hf
  obtain ⟨ha, hx, hy, hsp, hp, hpc, hlatch, hcpu, hcycles, hppu, hhalt, hcfg⟩ :=
    (s.advance 1).push_fields v
  have hexec := he s
  rw [hpush] at hexec
  rw [nextPc_of_impliedBody hf]
  refine ⟨_, ⟨hexec, hpc, congrArg (· + base) hcpu, hlatch, hppu, hcycles, hhalt, hcfg⟩,
    fun a => ?_, hsp, ha, hx, hy, hp⟩
  rw [State.peek_tick, State.peek_push, State.peek_advance]
  simp [translate_stackAddr, Target.isRam]

/-- The byte stored at a stack address is read back there: the stack page is work RAM (R27). -/
theorem peek_stackAddr_of_storedAt {t : State} {sp v : Byte} (h : StoredAt s t (stackAddr sp) v) :
    t.peek (stackAddr sp) = some v := by
  rw [h, translate_stackAddr, if_pos ⟨rfl, rfl⟩]

/-- Settles O33: PHA and PHP are pushes, of `A` and of `pushedStatus`. -/
theorem pushesStoreThenDecrement : Obligations.PushesStoreThenDecrement := by
  refine ⟨rfl, rfl, toNat_stackAddr, fun s i v hi => ?_⟩
  have hpush : ∃ f, impliedBody i.mnemonic = some (3, f) ∧
      f (s.advance 1) = (s.advance 1).push v := by
    rcases hi with ⟨rfl, rfl⟩ | ⟨rfl, rfl⟩ <;> exact ⟨_, rfl, rfl⟩
  obtain ⟨f, hf, hv⟩ := hpush
  obtain ⟨t, hdone, hstored, hsp, hregs⟩ := completes_of_push hf hv
  refine ⟨t, hdone, hstored, peek_stackAddr_of_storedAt hstored, ?_, hregs⟩
  rw [hsp]
  bv_omega

/-! ## Pulls -/

/-- The address of a pull, with the wrap of `SP + 1` written out (R27). -/
theorem stackAddr_add_one (sp : Byte) :
    stackAddr (sp + 1) = BitVec.ofNat 16 (0x0100 + (sp.toNat + 1) % 256) := by
  apply BitVec.eq_of_toNat_eq
  rw [toNat_stackAddr, BitVec.toNat_add, BitVec.toNat_ofNat]
  exact (Nat.mod_eq_of_lt (by omega)).symm

/-- The byte above the stack pointer is pulled; only the pointer and the latch change (R27). -/
theorem State.pull_of_peek {v : Byte} (h : s.peek (stackAddr (s.sp + 1)) = some v) :
    s.pull = (v, (s.setSp (s.sp + 1)).setLatch v) := by
  rw [State.peek_stackAddr, Option.some.injEq] at h
  rw [State.pull_eq, h]

/-- An implicit-mode instruction whose body pulls a byte and works on `A` and `P` with it completes with
the pointer moved up and the byte on the latch (R27). -/
theorem completes_of_pull {base : Nat} {g : Byte → Byte × State → State} {v : Byte}
    {post : State → Prop} (hf : impliedBody i.mnemonic = some (base, fun t => g t.p t.pull))
    (hv : s.peek (stackAddr (s.sp + 1)) = some v)
    (hregs : ∀ u, ∃ a p, g s.p (v, u) = { u with a := a, p := p })
    (hpost : post ((g s.p (v, ((s.advance 1).setSp (s.sp + 1)).setLatch v)).tick base)) :
    ∃ t, Completes i s { s with latch := v } t base (nextPc i s) ∧ MemKept s t ∧ post t := by
  obtain ⟨-, he, -⟩ := exec_implied hf
  have hpull := State.pull_of_peek (s := s.advance 1) ((State.peek_advance ..).trans hv)
  obtain ⟨a, p, hg⟩ := hregs (((s.advance 1).setSp (s.sp + 1)).setLatch v)
  refine ⟨_, ⟨(he s).trans (by rw [hpull]; rfl), ?_⟩, ?_, hpost⟩
  · rw [hg, nextPc_of_impliedBody hf]
    exact ⟨rfl, rfl, rfl, rfl, rfl, rfl, rfl⟩
  · rw [hg]
    exact State.peek_congr rfl rfl rfl

/-- Settles O34: PLA and PLP pull the byte above `SP`, into `A` with `SetNZ` and into `P` by
`pulledStatus`. -/
theorem pullsIncrementThenLoad : Obligations.PullsIncrementThenLoad := by
  refine ⟨rfl, rfl, fun s => ?_⟩
  have hv := s.peek_stackAddr (s.sp + 1)
  generalize s.cell .wram _ = v at hv
  rw [← stackAddr_add_one]
  refine ⟨v, hv, ?_, ?_⟩
  · exact completes_of_pull (g := fun p r => r.2.withA (passNZ r.1 p)) rfl hv
      (fun _ => ⟨_, _, rfl⟩) ⟨rfl, rfl, rfl, rfl, nz_setNZ s.p v, flagsKeptBut_of_setNZ rfl⟩
  · exact completes_of_pull (g := fun p r => r.2.setP (pulledStatus p r.1)) rfl hv
      (fun _ => ⟨_, _, rfl⟩) ⟨rfl, rfl, rfl, rfl, rfl⟩

/-! ## The trap entry -/

/-- Program ROM is the configuration's (R8, R67). -/
theorem State.cell_prg_congr {t : State} (h : t.cfg = s.cfg) (j : Nat) :
    t.cell .prg j = s.cell .prg j := by
  simp only [State.cell, State.buffer, h]

/-- BRK's trap entry, with the vector as it is stored before the pushes, which do not reach program ROM
(R212, R226). -/
theorem State.takeTrap_brk_of_peek {lo hi : Byte} (ret : Addr) (hlo : s.peek 0xFFFE = some lo)
    (hhi : s.peek 0xFFFF = some hi) :
    s.takeTrap ret brkVector =
      ((((s.pushWord ret).push (pushedStatus s.p)).setP (setFlag s.p .i true)).setLatch hi).setPc
        (wordOf lo hi) := by
  have hcfg : ((s.pushWord ret).push (pushedStatus s.p)).cfg = s.cfg := by
    simp only [State.push_fields, State.pushWord_fields]
  rw [State.peek_prg s (by decide), Option.some.injEq] at hlo hhi
  simp only [State.takeTrap_brk, State.cell_prg_congr hcfg, ← hlo, ← hhi]
  rfl

/-- What is stored behind an address after the three pushes of a trap entry (R212). -/
theorem State.peek_pushWord_push (ret : Addr) (v : Byte) (a : Addr) :
    ((s.pushWord ret).push v).peek a =
      if translateAddr s.cfg a = translateAddr s.cfg (stackAddr (s.sp - 2)) then some v
      else if translateAddr s.cfg a = translateAddr s.cfg (stackAddr (s.sp - 1)) then
        some (loByte ret)
      else if translateAddr s.cfg a = translateAddr s.cfg (stackAddr s.sp) then some (hiByte ret)
      else s.peek a := by
  obtain ⟨-, -, -, -, -, -, -, -, -, -, -, hcfg⟩ := s.pushWord_fields ret
  rw [State.peek_push, State.peek_pushWord, State.pushWord_sp, hcfg]

/-- The three bytes of a trap entry's frame lie in three different cells (R27, R212). -/
theorem State.peek_pushWord_push_stackAddr (ret : Addr) (v : Byte) :
    ((s.pushWord ret).push v).peek (stackAddr s.sp) = some (hiByte ret) ∧
    ((s.pushWord ret).push v).peek (stackAddr (s.sp - 1)) = some (loByte ret) ∧
    ((s.pushWord ret).push v).peek (stackAddr (s.sp - 2)) = some v := by
  have h1 : s.sp ≠ s.sp - 1 := by bv_omega
  have h2 : s.sp ≠ s.sp - 2 := by bv_omega
  have h12 : s.sp - 1 ≠ s.sp - 2 := by bv_omega
  simp only [State.peek_pushWord_push, stackAddr_translate_inj, h1, h2, h12, if_true, if_false,
    and_self]

/-- BRK makes the pushes of its trap entry, the return address being two past the opcode, and then writes
`I`, the latch, `PC` and the clock (R212). -/
theorem exec_brk_of_peek {lo hi : Byte} (hlo : s.peek 0xFFFE = some lo)
    (hhi : s.peek 0xFFFF = some hi) :
    let u := ((s.advance 1).pushWord (s.pc + 2)).push (pushedStatus s.p)
    exec .brk s = .next { u with
      p := setFlag s.p .i true, pc := wordOf lo hi, latch := hi, cpuCycles := u.cpuCycles + 7 } :=
  congrArg (fun t => Host.Outcome.next (State.tick t 7))
    (State.takeTrap_brk_of_peek (s := s.advance 1) (s.pc + 2) ((State.peek_advance ..).trans hlo)
      ((State.peek_advance ..).trans hhi))

/-- Settles O36: BRK is the trap entry; the three pushes give the registers and the frame. -/
theorem breakEntersTheHandler : Obligations.BreakEntersTheHandler := by
  refine ⟨rfl, fun s => ?_⟩
  have hlo := s.peek_prg (a := 0xFFFE) (by decide)
  have hhi := s.peek_prg (a := 0xFFFF) (by decide)
  generalize s.cell .prg _ = lo at hlo
  generalize s.cell .prg _ = hi at hhi
  have hexec := exec_brk_of_peek hlo hhi
  obtain ⟨ha, hx, hy, hsp, -, -, -, hcpu, hcycles, hppu, hhalt, hcfg⟩ :=
    ((s.advance 1).pushWord (s.pc + 2)).push_fields (pushedStatus s.p)
  simp only [State.pushWord_fields] at ha hx hy hsp hcpu hcycles hppu hhalt hcfg
  obtain ⟨hhigh, hlow, hstatus⟩ :=
    (s.advance 1).peek_pushWord_push_stackAddr (s.pc + 2) (pushedStatus s.p)
  have hframe := (s.advance 1).peek_pushWord_push (s.pc + 2) (pushedStatus s.p)
  generalize ((s.advance 1).pushWord (s.pc + 2)).push (pushedStatus s.p) = u at *
  have hpeek : ∀ a, { u with
      p := setFlag s.p .i true, pc := wordOf lo hi, latch := hi,
      cpuCycles := u.cpuCycles + 7 }.peek a = u.peek a := State.peek_congr rfl rfl rfl
  refine ⟨lo, hi, _, hlo, hhi, ⟨hexec, wordOf_eq_ofNat lo hi, congrArg (· + 7) hcpu, rfl, hppu,
    hcycles, hhalt, hcfg⟩, hsp.trans ?_, ha, hx, hy, (flag_setFlag ..).trans (if_pos rfl),
    flagsKeptBut_of_setFlag (b := true) rfl, (hpeek _).trans hhigh, (hpeek _).trans hlow,
    (hpeek _).trans hstatus, fun a hnotHigh hnotLow hnotStatus => ?_⟩
  · rw [State.advance_sp]
    bv_omega
  · rw [hpeek, hframe]
    exact (if_neg hnotStatus).trans ((if_neg hnotLow).trans ((if_neg hnotHigh).trans
      (State.peek_advance ..)))

/-! ## The trap return -/

/-- The trap return, by the three bytes above the stack pointer (R213, R227). -/
theorem State.returnFromTrap_of_peek {q lo hi : Byte}
    (hq : s.peek (stackAddr (s.sp + 1)) = some q) (hlo : s.peek (stackAddr (s.sp + 2)) = some lo)
    (hhi : s.peek (stackAddr (s.sp + 3)) = some hi) :
    s.returnFromTrap =
      (((s.setSp (s.sp + 3)).setP (pulledStatus s.p q)).setLatch hi).setPc (wordOf lo hi) := by
  have hsp2 : s.sp + 1 + 1 = s.sp + 2 := BitVec.add_assoc s.sp 1 1
  have hsp3 : s.sp + 2 + 1 = s.sp + 3 := BitVec.add_assoc s.sp 2 1
  rw [State.peek_stackAddr, Option.some.injEq] at hq hlo hhi
  rw [State.returnFromTrap_eq, hsp2, hsp3, hq, hlo, hhi]

/-- RTI takes `P` but for bits 4 and 5 and then `PC` from the stack; beside them, `SP` and the clock only
the latch changes (R213). -/
theorem exec_rti_of_peek {q lo hi : Byte}
    (hq : s.peek (stackAddr (s.sp + 1)) = some q) (hlo : s.peek (stackAddr (s.sp + 2)) = some lo)
    (hhi : s.peek (stackAddr (s.sp + 3)) = some hi) :
    exec .rti s = .next { s with
      sp := s.sp + 3, p := pulledStatus s.p q, pc := wordOf lo hi, latch := hi,
      cpuCycles := s.cpuCycles + 6 } := by
  have hret := State.returnFromTrap_of_peek (s := s.advance 1) ((State.peek_advance ..).trans hq)
    ((State.peek_advance ..).trans hlo) ((State.peek_advance ..).trans hhi)
  obtain ⟨-, he, -⟩ := exec_implied (i := .rti) rfl
  rw [he, hret]
  rfl

/-- Settles O37: the stack page is work RAM, so that the three bytes are there whatever `SP` is. -/
theorem returnFromInterrupt : Obligations.ReturnFromInterrupt := by
  refine ⟨rfl, fun s => ?_⟩
  have hq := s.peek_stackAddr (s.sp + 1)
  have hlo := s.peek_stackAddr (s.sp + 2)
  have hhi := s.peek_stackAddr (s.sp + 3)
  generalize s.cell .wram _ = q at hq
  generalize s.cell .wram _ = lo at hlo
  generalize s.cell .wram _ = hi at hhi
  exact ⟨q, lo, hi, _, hq, hlo, hhi,
    ⟨exec_rti_of_peek hq hlo hhi, wordOf_eq_ofNat lo hi, rfl, rfl, rfl, rfl, rfl, rfl⟩,
    rfl, rfl, rfl, rfl, rfl, State.peek_congr rfl rfl rfl⟩

end Sys2Proof.Machine
end

section
/-! PROOFS. The trap and its return together, the outcome of every instruction, and the halt on an
unassigned opcode (R220, R221, R226, R227). -/

namespace Sys2Proof.Machine
open Sys2Proof.Claims

variable {s : State}

/-! ## The trap and its return -/

/-- Pulling a pushed `P` gives it back, but for bits 4 and 5 (R25, R227). -/
theorem pulledStatus_pushedStatus (p q : Byte) :
    pulledStatus q (pushedStatus p) = (p &&& 0xCF) ||| (q &&& 0x30) := by
  have hmasks : (0xCF : Byte) &&& 0x30 = 0#8 := rfl
  rw [pulledStatus, pushedStatus, BitVec.and_comm, BitVec.and_or_distrib_left, hmasks,
    BitVec.or_zero, BitVec.and_comm]

/-- Settles O38: the three bytes BRK pushed (O36) are those RTI pulls, with `SP` 3 lower. -/
theorem interruptReturnsPastTheBreak : Obligations.InterruptReturnsPastTheBreak := by
  intro s t u hbrk hsp hframe
  obtain ⟨-, -, t', -, -, ⟨hbrk', -⟩, htsp, -, -, -, -, -, hhi, hlo, hq, -⟩ :=
    breakEntersTheHandler.2 s
  obtain rfl : t = t' := Host.Outcome.next.inj (hbrk.symm.trans hbrk')
  rw [← hsp] at htsp hframe
  have h1 : s.sp - 2 = u.sp + 1 := by bv_omega
  have h2 : s.sp - 1 = u.sp + 2 := by bv_omega
  have h3 : s.sp = u.sp + 3 := by bv_omega
  rw [h1] at hq
  rw [h2] at hlo
  rw [h3] at hhi
  refine ⟨_, exec_rti_of_peek ((hframe 1 (by decide)).trans hq) ((hframe 2 (by decide)).trans hlo)
    ((hframe 3 (by decide)).trans hhi), wordOf_loByte_hiByte _, h3.symm,
    pulledStatus_pushedStatus s.p u.p⟩

/-! ## The whole instruction set -/

/-- Settles O40: the answer and its cost, and what the execution keeps. -/
theorem everyInstructionCompletes : Obligations.EveryInstructionCompletes := by
  intro i s
  obtain ⟨t, cost, hexec, hcost, hmin, hmax⟩ := exec_answers i s
  have hkeeps := exec_keeps hexec
  exact ⟨t, hexec, by omega, by omega, hkeeps.config, hkeeps.halt⟩

/-! ## The invalid opcode -/

/-- A row never rejects its own opcode as unassigned: it can only lack operand bytes (R92, R98). -/
theorem Row.build_ne_invalidOpcode (r : Row) (operands : List Byte) (op : Byte) :
    r.build operands ≠ .rejected (.invalidOpcode op) := by
  unfold Row.build
  split <;> nofun

/-- Behind an assigned opcode the fetch reads an instruction (R98, R111). -/
theorem State.fetch_decodes {r : Row} (h : opcodeRow? (s.busRead s.pc).1 = some r) :
    ∃ i rest, decode s.fetch.1 = .decoded i rest := by
  cases hd : decode s.fetch.1 with
  | decoded i rest => exact ⟨i, rest, rfl⟩
  | rejected e =>
    obtain ⟨op, rfl, -⟩ := State.fetch_rejected hd
    rw [State.fetch_row h, decode, h] at hd
    exact (Row.build_ne_invalidOpcode r _ op hd).elim

/-- A step on an assigned opcode executes an instruction, which leaves the core running (R220). -/
theorem step_of_assigned {r : Row} (hvalid : s.cfg.valid = true) (hrun : s.halted = none)
    (h : opcodeRow? (s.busRead s.pc).1 = some r) : ∃ t, step s = .next t ∧ t.halted = none := by
  obtain ⟨i, rest, hd⟩ := State.fetch_decodes h
  obtain ⟨t, cost, hexec, -⟩ := exec_answers i s.fetch.2
  exact ⟨t, (step_of_decoded hvalid hrun hd).trans hexec,
    (Keeps.fetch.trans (exec_keeps hexec)).halt.trans hrun⟩

/-- A step on an unassigned opcode reads that byte and makes the record, at the `PC` it was read from
(R221). -/
theorem step_of_unassigned (hvalid : s.cfg.valid = true) (hrun : s.halted = none)
    (h : opcodeRow? (s.busRead s.pc).1 = none) :
    step s = .next { (s.busRead s.pc).2 with halted := some (s.pc, (s.busRead s.pc).1) } := by
  simp only [step, hvalid, hrun, State.fetch_invalid h, decode, h, State.haltOn, State.halt,
    State.busRead_pc]

/-- Settles O48: the listed bytes are those without a row (O3), and what the fetch of the opcode did is
what a read of its kind of address does. -/
theorem invalidOpcodeHaltsTheCore : Obligations.InvalidOpcodeHaltsTheCore := by
  intro s hvalid hrun op u
  have hassigned : opcodeRow? op = none ↔ op ∈ invalidOpcodes :=
    unassignedOpcodesAreTheListed105.2 op
  refine ⟨fun hop => step_of_unassigned hvalid hrun (hassigned.2 hop), fun hop => ?_,
    s.busRead_latch _, s.busRead_pc _, ⟨s.busRead_a _, s.busRead_x _, s.busRead_y _,
    s.busRead_sp _⟩, s.busRead_p _, s.busRead_wram _, s.busRead_sram _, s.busRead_cfg _,
    s.busRead_cpuCycles _, fun v hv => ?_, fun hopen => ?_, fun r hr => ?_⟩
  · obtain ⟨r, hr⟩ := Option.ne_none_iff_exists'.mp (mt hassigned.1 hop)
    exact step_of_assigned hvalid hrun hr
  · exact Prod.ext_iff.mp (State.busRead_of_peek hv)
  · exact Prod.ext_iff.mp (State.busRead_openBus hopen)
  · have hread : u = _ := congrArg Prod.snd (State.busRead_gfx hr)
    rw [hread]
    exact ⟨rfl, s.catchUp_ppuCycles⟩

end Sys2Proof.Machine
end
